-- ==== Sys2Proof/Word.lean ====
section
/-! DEFINITION. The bit sequences of the C-Netz PHY block (30_encoding.md R60): one name for each wire format
and for the request word. Index 0 of a sequence is its first and most significant bit (00_scope.md R7);
`Sys2Proof.Machine.bitAt` of Machine/Bits.lean reads by that index. -/

namespace Sys2Proof

/-- A request word `REQ` (30_encoding.md R61). -/
abbrev Req := BitVec 68

/-- The argument field `REQ[63:0]` (R61). -/
abbrev Arg := BitVec 64

/-- The payload `P` of a telegram (R62). -/
abbrev Payload := BitVec 64

/-- The information vector `I` (R63). -/
abbrev Info := BitVec 70

/-- The data bits of one group (R65). -/
abbrev Group := BitVec 7

/-- A 15-bit word of the block code (R64). -/
abbrev CodeWord := BitVec 15

/-- Ten 15-bit words, word 0 first (R66). -/
abbrev Words := Vector CodeWord 10

/-- The interleaved sequence `X`, and a received copy `Y` of it (R66). -/
abbrev Coded := BitVec 150

/-- The frame `F` (R67). -/
abbrev FrameBits := BitVec 184

/-- A window of 33 recovered bits (10_state.md R17). -/
abbrev SyncWindow := BitVec 33

end Sys2Proof
end

