-- ==== Sys2Proof/Machine/Bits.lean ====
section
/-! DEFINITION. The notation of 00_scope.md R7 on bit sequences and integers: indexing from the first (most significant)
bit, subsequences, Hamming distance, sign extension, the shift of an array by one place. -/

namespace Sys2Proof.Machine

/-- `B[i]`: bit `i` of a sequence, bit 0 the first and most significant (R7, 20_memory.md R44). -/
def bitAt {n : Nat} (v : BitVec n) (i : Nat) : Bool := v.getMsbD i

/-- The sequence of `n` bits whose bit `i` is `f i`. -/
def ofBits : (n : Nat) → (Nat → Bool) → BitVec n
  | 0, _ => 0#0
  | n + 1, f => (ofBits n f).concat (f n)

/-- `B[start .. start+len-1]` (R7). -/
def slice {n : Nat} (v : BitVec n) (start len : Nat) : BitVec len :=
  ofBits len fun i => bitAt v (start + i)

/-- `wt(A)`: the number of ones (R7). -/
def weight {n : Nat} (v : BitVec n) : Nat := (List.range n).countP fun i => bitAt v i

/-- `ham(A, B)`: the number of indices at which two sequences differ (R7). -/
def ham {n : Nat} (a b : BitVec n) : Nat := weight (a ^^^ b)

/-- `v` with bit `i` flipped. -/
def flipBit {n : Nat} (v : BitVec n) (i : Nat) : BitVec n :=
  ofBits n fun k => if k = i then !bitAt v k else bitAt v k

/-- `v` with bit `i` set to `b`; an index outside the sequence changes nothing. -/
def setBitAt {n : Nat} (v : BitVec n) (i : Nat) (b : Bool) : BitVec n :=
  ofBits n fun k => if k = i then b else bitAt v k

/-- A bit history moved one place: bit 0 is dropped, the others move down, `b` becomes the last (20_memory.md R42). -/
def shiftBits {n : Nat} (v : BitVec n) (b : Bool) : BitVec n :=
  ofBits n fun k => if k + 1 = n then b else bitAt v (k + 1)

/-- An array moved one place: entry 0 is dropped, `x` becomes the last (20_memory.md R41, R42). -/
def shiftIn {α : Type} (l : List α) (x : α) : List α := l.drop 1 ++ [x]

/-- `zext_N(v)`: the low `n` bits as a natural number (R7). -/
def zext (n v : Nat) : Nat := v % 2 ^ n

/-- `sext_N(v)`: the low `n` bits as a two's-complement integer (R7). -/
def sext (n v : Nat) : Int :=
  if zext n v < 2 ^ (n - 1) then (zext n v : Int) else (zext n v : Int) - 2 ^ n

/-- 1 or 0. -/
def bitNat (b : Bool) : Nat := if b then 1 else 0

end Sys2Proof.Machine
end

