-- ==== Sys2Proof/Config.lean ====
section
/-! DEFINITION. The configuration `K` of the block: the fixed sizes and the named parameters of 00_scope.md R6,
and the free values, which nothing in Lean can evaluate. The reference configuration is in Machine/RefCfg.lean. -/

namespace Sys2Proof.Config

/-- `SYNC_MAXERR`: mismatches a detected sync window may have (R6). -/
def syncMaxErr : Nat := 2

/-- `NSLOTS`: time slots per super-frame (R6). -/
def nSlots : Nat := 32

/-- `FRAME_BITS` (R6, R67). -/
def frameBits : Nat := 184

/-- `CODED_BITS` (R6). -/
def codedBits : Nat := 150

/-- The sync bits of a frame: `SYNC_LEN * SYNC_REP` (R6). -/
def syncBits : Nat := 33

/-- The argument `ev` of the adaptive-threshold law (R6 `ThrNext`, 40_demod.md R102). -/
inductive ThrEvent where
  /-- An accepted transition of this level. -/
  | accepted (level : Nat)
  /-- A repeated bit. -/
  | repeated
  deriving DecidableEq, Repr

/-- Which total function `ThrNext` is. The spec leaves it open (R102, U3), and State is plain data, so the
configuration holds a name for the law: the instance of REFCFG, or any of a family nothing is known of
(log entry 2). -/
inductive ThrLaw where
  /-- The REFCFG instance (R6). -/
  | refcfg
  /-- Law number `n` of the free family `freeThrNext`. -/
  | free (n : Nat)
  deriving DecidableEq, Repr

/-- FREE VALUE (log entry 2). `freeThrNext n thr ev` is the next threshold under the law `ThrLaw.free n`:
40_demod.md R102 says `ThrNext` is any total function and that no property of it may be assumed. -/
opaque freeThrNext : Nat → Nat → ThrEvent → Nat

/-- FREE VALUE (log entry 6). `freeFrameBuffer i fb` is the frame buffer after a write to `fb` with frame index `i` outside
34..183, which is no index of the array; R40 says no rule forms one. -/
opaque freeFrameBuffer : Nat → Coded → Coded

/-- FREE VALUE (log entry 7). The bit read from `txf` at an index outside 0..183; 20_memory.md R40 says every index
a rule forms is inside the array, so no rule gives it a value. -/
opaque freeTxBit : Nat → Bool

/-- A configuration: one value for each parameter of R6 that the source does not fix. Integers are natural numbers
of ticks, bits or samples. `SUPER_T` is not a field: R6 makes it `NSLOTS * SLOT_T`. -/
structure Params where
  /-- `PAD6`: the six bits that fill 64 up to 70. -/
  pad6 : BitVec 6
  /-- `SYNC11`: the sync sequence, first bit most significant. -/
  sync11 : BitVec 11
  /-- `MARKER`: the marker bit. -/
  marker : Bool
  /-- `GEN[0..6]`: the redundancy contribution of each data bit, first redundancy bit most significant. -/
  gen : Vector (BitVec 8) 7
  /-- `SW`: sample width in bits. -/
  sw : Nat
  /-- `W`: samples in the one-bit window. -/
  w : Nat
  /-- `TPS`: ticks per sample. -/
  tps : Nat
  /-- `BIT_T`: ticks per bit. -/
  bitT : Nat
  /-- `PHASE_T`: offset of a locked sampling instant from the nominal arrival of its bit. -/
  phaseT : Nat
  /-- `THR_INIT`: the threshold after reset. -/
  thrInit : Nat
  /-- `ThrNext`: the adaptive-threshold law. -/
  thrLaw : ThrLaw
  /-- `THR_LOCK_NUM`. -/
  lockNum : Nat
  /-- `THR_LOCK_DEN`. -/
  lockDen : Nat
  /-- `SLOT_T`: ticks per time slot. -/
  slotT : Nat
  /-- `RXPER_T`: ticks between two expected frame origins. -/
  rxperT : Nat
  /-- `ORIGIN_T`: expected position of a frame's time origin after a slot boundary. -/
  originT : Nat
  /-- `TXOFF_BITS`: bit index inside an `RXPER_T` period at which a transmitted frame starts. -/
  txoffBits : Nat
  deriving DecidableEq, Repr

end Sys2Proof.Config
end

