-- ==== Sys2Proof/Syntax.lean ====
section
/-! DEFINITION. The operations of the block (00_scope.md R2), one constructor for each row of spec/opcode_table.json:
the seven requests and the nine reserved codes (30_encoding.md R70), and the 24 internal operations (R75), which no
request word selects and whose constructors carry the operands their rules give them (log entry 5). -/

namespace Sys2Proof

/-- The result of a classifier (40_demod.md R93). -/
structure Change where
  /-- The window holds a candidate transition. -/
  found : Bool
  /-- Index of the candidate, 0 when there is none. -/
  peak : Nat
  /-- 1 for a rising transition, 0 for a falling one, 0 when there is none. -/
  pol : Bool
  /-- The spread of the window. -/
  level : Nat
  deriving DecidableEq, Repr

/-- The operand of `PAD` (42_codec.md R151, "`PAD(P)` and its inverse"). -/
inductive PadForm where
  /-- `PAD(P)`. -/
  | pad (p : Payload)
  /-- `UNPAD(I)`. -/
  | unpad (i : Info)
  deriving DecidableEq, Repr

/-- The operations. -/
inductive Instr where
  /-- `NOP`, code 0x0 (44_control.md R202). -/
  | nop
  /-- `RESET`, code 0x1 (R200). -/
  | reset
  /-- `CFGWR c`, code 0x2 (R201); `c = arg[2:0]`. -/
  | cfgwr (c : BitVec 3)
  /-- `SAMPLE`, code 0x3 (40_demod.md R91); the sample is `sext_SW(arg)`. -/
  | sample (arg : Arg)
  /-- `SAMPLESKIP`, code 0x4 (R92). -/
  | sampleskip
  /-- `TXLOAD P`, code 0x5 (41_framer.md R134). -/
  | txload (p : Payload)
  /-- `CLKLOAD`, code 0x6 (43_clock.md R185); the phase is `arg mod SUPER_T`. -/
  | clkload (arg : Arg)
  /-- Reserved request code 0x7 (44_control.md R203). -/
  | reserved7
  /-- Reserved request code 0x8 (R203). -/
  | reserved8
  /-- Reserved request code 0x9 (R203). -/
  | reserved9
  /-- Reserved request code 0xA (R203). -/
  | reservedA
  /-- Reserved request code 0xB (R203). -/
  | reservedB
  /-- Reserved request code 0xC (R203). -/
  | reservedC
  /-- Reserved request code 0xD (R203). -/
  | reservedD
  /-- Reserved request code 0xE (R203). -/
  | reservedE
  /-- Reserved request code 0xF (R203). -/
  | reservedF
  /-- `CLKTICK()` (43_clock.md R180). -/
  | clktick
  /-- `TXBIT()` (41_framer.md R135). -/
  | txbit
  /-- `WINPUSH(s)` (40_demod.md R94). -/
  | winpush (s : Int)
  /-- `CLASSIFY.SLOPE(win)` (R95). -/
  | classifySlope (win : List Int)
  /-- `CLASSIFY.ZC(win)` (R96). -/
  | classifyZc (win : List Int)
  /-- `ACCEPT(c, thr)` (R97). -/
  | accept (c : Change) (thr : Nat)
  /-- `UNSYNC_STEP(acc, c)` (R99-R102). -/
  | unsyncStep (acc : Bool) (c : Change)
  /-- `BITOUT(b, l, a)` (R103). -/
  | bitout (b : Bool) (l : Nat) (a : Int)
  /-- `SYNCDET(sr)` (41_framer.md R131). -/
  | syncdet (w : SyncWindow)
  /-- `LOCK()` (40_demod.md R105). -/
  | lock
  /-- `LOCKED_STEP(acc, c)` (R106). -/
  | lockedStep (acc : Bool) (c : Change)
  /-- `FRAMEBIT(b)` (R107). -/
  | framebit (b : Bool)
  /-- `FRAMEDONE()` (R108). -/
  | framedone
  /-- `SYNCERR(origin)` (43_clock.md R183). -/
  | syncerr (origin : Int)
  /-- `CLKCORR(e)` (R184). -/
  | clkcorr (e : Int)
  /-- `PAD(P)` and its inverse (42_codec.md R151). -/
  | pad (f : PadForm)
  /-- `BCHENC(D)` (R153). -/
  | bchenc (d : Group)
  /-- `INTERLEAVE(CW_0 .. CW_9)` (R155). -/
  | interleave (cw : Words)
  /-- `ENCODE(P)` (R156). -/
  | encode (p : Payload)
  /-- `FRAME(X)` (41_framer.md R133). -/
  | frame (x : Coded)
  /-- `DEINTERLEAVE(Y)` (42_codec.md R157). -/
  | deinterleave (y : Coded)
  /-- `BCHDEC(w)` (R158). -/
  | bchdec (w : CodeWord)
  /-- `DECODE(Y)` (R160). -/
  | decode (y : Coded)
  /-- `IDLECHK(P)` (R161). -/
  | idlechk (p : Payload)
  deriving DecidableEq, Repr

end Sys2Proof
end

