-- ==== Sys2Proof/WellFormed.lean ====
section
/-! DEFINITION. Which operands an operation can be invoked with. A decoded request is always well formed
(44_control.md R204: decoding is total); of the internal operations, those that take a sample, a window or a classifier
result have a range the spec gives. -/

namespace Sys2Proof

/-- A sample is an integer in `-2^(SW-1) .. 2^(SW-1)-1` (10_state.md R13, 40_demod.md R91). -/
def sampleInRange (K : Config.Params) (s : Int) : Bool :=
  decide (-(2 ^ (K.sw - 1) : Int) ≤ s) && decide (s < (2 ^ (K.sw - 1) : Int))

/-- The full window: `W` samples (10_state.md R13). -/
def windowInRange (K : Config.Params) (win : List Int) : Bool :=
  decide (win.length = K.w) && win.all (sampleInRange K)

/-- A classifier result (40_demod.md R93): a candidate's index is in `1..W-1`; with none, `peak` and `pol` are 0.
The level is at most `2^SW - 1` (70_reset_and_hazards.md R264). -/
def changeInRange (K : Config.Params) (c : Change) : Bool :=
  (if c.found then decide (1 ≤ c.peak) && decide (c.peak < K.w) else decide (c.peak = 0) && !c.pol)
    && decide (c.level < 2 ^ K.sw)

/-- The operands of `i` are in the ranges the spec gives them under the configuration `K`. -/
def Instr.wf (K : Config.Params) : Instr → Bool
  | .nop | .reset | .cfgwr _ | .sample _ | .sampleskip | .txload _ | .clkload _ => true
  | .reserved7 | .reserved8 | .reserved9 | .reservedA | .reservedB => true
  | .reservedC | .reservedD | .reservedE | .reservedF => true
  | .clktick | .txbit => true
  | .winpush s => sampleInRange K s
  | .classifySlope win => windowInRange K win
  | .classifyZc win => windowInRange K win
  | .accept c _ => changeInRange K c
  | .unsyncStep acc c => !acc || changeInRange K c
  | .bitout _ l _ => decide (l < 2 ^ K.sw)
  | .syncdet _ | .lock => true
  | .lockedStep acc c => !acc || changeInRange K c
  | .framebit _ | .framedone | .syncerr _ | .clkcorr _ => true
  | .pad _ | .bchenc _ | .interleave _ | .encode _ | .frame _ => true
  | .deinterleave _ | .bchdec _ | .decode _ | .idlechk _ => true

end Sys2Proof
end

