-- ==== Sys2Proof/Decode.lean ====
section
/-! DEFINITION. The request word (30_encoding.md R61, R70): `REQ[67:64]` is the request code, `REQ[63:0]` the argument.
Decoding is total on 68-bit words (44_control.md R204); a number that is no 68-bit word is rejected by name.
The encoder follows it, from the same table. -/

namespace Sys2Proof

/-- Why a number is not a request word. -/
inductive DecodeReject where
  /-- A bit above `REQ[67]` is set: a request is a 68-bit word (R61). -/
  | widerThanRequest
  deriving DecidableEq, Repr

/-- `REQ[67:64]`. -/
def opOf (r : Req) : BitVec 4 := r.extractLsb' 64 4

/-- `REQ[63:0]`. -/
def argOf (r : Req) : Arg := r.extractLsb' 0 64

/-- The request a word selects (R70, R204). Argument bits a request does not read are dropped here (U10), but for
`SAMPLE` and `CLKLOAD`, whose reading of the argument depends on the configuration. -/
def decode (r : Req) : Instr :=
  match (opOf r).toNat with
  | 0x0 => .nop
  | 0x1 => .reset
  | 0x2 => .cfgwr ((argOf r).extractLsb' 0 3)
  | 0x3 => .sample (argOf r)
  | 0x4 => .sampleskip
  | 0x5 => .txload (argOf r)
  | 0x6 => .clkload (argOf r)
  | 0x7 => .reserved7
  | 0x8 => .reserved8
  | 0x9 => .reserved9
  | 0xA => .reservedA
  | 0xB => .reservedB
  | 0xC => .reservedC
  | 0xD => .reservedD
  | 0xE => .reservedE
  | _ => .reservedF

/-- A number as a request word. -/
def reqOfNat (n : Nat) : Except DecodeReject Req :=
  if n < 2 ^ 68 then .ok (BitVec.ofNat 68 n) else .error .widerThanRequest

/-- The request a number selects, or why it selects none. -/
def decodeNat (n : Nat) : Except DecodeReject Instr :=
  match reqOfNat n with
  | .ok r => .ok (decode r)
  | .error e => .error e

/-- The instruction the decoder reads from the low `nbits` bits of `w`, bit 0 the least significant bit of `REQ`
(log entry 12). -/
def decodeTableWord (nbits w : Nat) : Option Instr :=
  match decodeNat (w % 2 ^ nbits) with
  | .ok i => some i
  | .error _ => none

/-- The word with code `op` and argument `arg` (R61). -/
def mkReq (op : BitVec 4) (arg : Arg) : Req := op ++ arg

/-- The request word of an operation, with 0 in the bits it ignores; none for an internal operation, which has no
encoding (R75). -/
def encode : Instr → Option Req
  | .nop => some (mkReq 0x0#4 0#64)
  | .reset => some (mkReq 0x1#4 0#64)
  | .cfgwr c => some (mkReq 0x2#4 (c.setWidth 64))
  | .sample a => some (mkReq 0x3#4 a)
  | .sampleskip => some (mkReq 0x4#4 0#64)
  | .txload p => some (mkReq 0x5#4 p)
  | .clkload a => some (mkReq 0x6#4 a)
  | .reserved7 => some (mkReq 0x7#4 0#64)
  | .reserved8 => some (mkReq 0x8#4 0#64)
  | .reserved9 => some (mkReq 0x9#4 0#64)
  | .reservedA => some (mkReq 0xA#4 0#64)
  | .reservedB => some (mkReq 0xB#4 0#64)
  | .reservedC => some (mkReq 0xC#4 0#64)
  | .reservedD => some (mkReq 0xD#4 0#64)
  | .reservedE => some (mkReq 0xE#4 0#64)
  | .reservedF => some (mkReq 0xF#4 0#64)
  | .clktick | .txbit | .winpush _ | .classifySlope _ | .classifyZc _ | .accept _ _ => none
  | .unsyncStep _ _ | .bitout _ _ _ | .syncdet _ | .lock | .lockedStep _ _ => none
  | .framebit _ | .framedone | .syncerr _ | .clkcorr _ | .pad _ | .bchenc _ => none
  | .interleave _ | .encode _ | .frame _ | .deinterleave _ | .bchdec _ | .decode _ => none
  | .idlechk _ => none

end Sys2Proof
end

