-- ==== Sys2Proof/Machine/RefCfg.lean ====
section
/-! DEFINITION. The reference configuration REFCFG (00_scope.md R6, 92_eei_decisions.md D39), what the parameters
derive (`SUPER_T`, `MID`), and the adaptive-threshold law `ThrNext`. -/

namespace Sys2Proof.Machine

open Sys2Proof.Config

/-- REFCFG: the value of each parameter in the last column of R6. SYNC11, GEN, SLOT_T and RXPER_T carry the spec's own mark
"from general knowledge, not in source" (log entry 1). -/
def refcfg : Params where
  pad6 := 0b000000#6
  sync11 := 0b11100010010#11
  marker := false
  gen := #v[0xE8#8, 0x74#8, 0x3A#8, 0x1D#8, 0xE6#8, 0x73#8, 0xD1#8]
  sw := 16
  w := 10
  tps := 8
  bitT := 80
  phaseT := 40
  thrInit := 1000
  thrLaw := .refcfg
  lockNum := 1
  lockDen := 2
  slotT := 31680
  rxperT := 15840
  originT := 1320
  txoffBits := 0

/-- `SUPER_T = NSLOTS * SLOT_T` (R6). -/
def superT (K : Params) : Nat := nSlots * K.slotT

/-- `MID = W div 2` (40_demod.md R93). -/
def mid (K : Params) : Nat := K.w / 2

/-- The REFCFG instance of `ThrNext` (R6). -/
def refThrNext (thr : Nat) : ThrEvent → Nat
  | .accepted l => max 200 ((thr + l / 2) / 2)
  | .repeated => max 200 (thr - thr / 32)

/-- `ThrNext(thr, ev)` of the configuration (R102). -/
def thrNext (K : Params) (thr : Nat) (ev : ThrEvent) : Nat :=
  match K.thrLaw with
  | .refcfg => refThrNext thr ev
  | .free n => freeThrNext n thr ev

end Sys2Proof.Machine
end

