-- ==== Sys2Proof/Machine/State.lean ====
section
/-! DEFINITION. The state of one instance (10_state.md R10-R28), grouped as that file groups it, and the state after reset
(R30). `K`, `reqs`, `out` and `ret` are the model's own fields (log entries 1, 3, 4, 5). -/

namespace Sys2Proof.Machine

open Sys2Proof.Config

/-- The two states of the receive sequencer (R12). -/
inductive Mode where
  | unsync
  | locked
  deriving DecidableEq, Repr

/-- The outcome of the most recently completed frame (R23). -/
inductive Stat where
  | none
  | ok
  | okCorrected
  | uncorrectable
  | idleDiscard
  deriving DecidableEq, Repr

/-- The demodulator state (R11-R20, R26). -/
structure Demod where
  /-- `t` (R11). -/
  t : Nat
  /-- `mode` (R12). -/
  mode : Mode
  /-- `bidx` (R12). -/
  bidx : Nat
  /-- `win[0..W-1]` (R13), oldest first. -/
  win : List Int
  /-- `wfill` (R13). -/
  wfill : Nat
  /-- `thr` (R14). -/
  thr : Nat
  /-- `wait` (R15). -/
  wait : Int
  /-- `cur_bit` (R16). -/
  curBit : Bool
  /-- `cur_lvl` (R16). -/
  curLvl : Nat
  /-- `sr[0..32]` (R17). -/
  sr : SyncWindow
  /-- `nb` (R17). -/
  nb : Nat
  /-- `hl[0..32]` (R18). -/
  hl : List Nat
  /-- `hw[0..32]` (R18). -/
  hw : List Int
  /-- `origin` (R19). -/
  origin : Int
  /-- `sync_level` (R19). -/
  syncLevel : Nat
  /-- `jit` (R19). -/
  jit : Nat
  /-- `fb[0..149]` (R20). -/
  fb : Coded
  /-- `rx_marker` (R20). -/
  rxMarker : Bool
  /-- `skipseen` (R26). -/
  skipseen : Bool
  deriving DecidableEq, Repr

/-- The receive result registers (R24), in the order of the arguments of `RXFRAME` (R31). -/
structure RxResult where
  payload : Payload
  opcode : BitVec 6
  pad : BitVec 6
  eflag : List Nat
  errcnt : Nat
  level : Nat
  syncerr : Int
  tvalid : Bool
  jitter : Nat
  deriving DecidableEq, Repr

/-- The transmit registers (R27). -/
structure Transmit where
  /-- `txn[0..183]`: the pending frame. -/
  txn : FrameBits
  /-- `tx_pend`. -/
  pend : Bool
  /-- `txf[0..183]`: the frame being sent. -/
  txf : FrameBits
  /-- `tx_act`. -/
  act : Bool
  /-- `txidx`. -/
  idx : Nat
  /-- `tx_bit`. -/
  bit : Bool
  deriving DecidableEq, Repr

/-- An output event (R31). -/
inductive Event where
  /-- `RAWBIT(b, level)`: one recovered bit and its change level. -/
  | rawbit (b : Bool) (level : Nat)
  /-- `RXFRAME(...)`: one accepted telegram with the values of R24. -/
  | rxframe (r : RxResult)
  /-- `TXBIT(b)`: one transmitted bit. -/
  | txbit (b : Bool)
  deriving DecidableEq, Repr

/-- A decoded telegram: the 70 information bits and the ten error flags (42_codec.md R160). -/
structure Telegram where
  info : Info
  eflag : List Nat
  deriving DecidableEq, Repr

/-- What an internal function returns when it is performed on its own (log entry 5). -/
inductive Value where
  /-- Nothing was returned. -/
  | none
  /-- ACCEPT, SYNCDET, IDLECHK. -/
  | bool (b : Bool)
  /-- CLASSIFY.SLOPE, CLASSIFY.ZC. -/
  | change (c : Change)
  /-- SYNCERR. -/
  | ticks (e : Int)
  /-- PAD. -/
  | info (i : Info)
  /-- UNPAD, the inverse of PAD. -/
  | unpadded (p : Payload) (pad : BitVec 6)
  /-- BCHENC. -/
  | word (w : CodeWord)
  /-- INTERLEAVE, ENCODE. -/
  | coded (x : Coded)
  /-- FRAME. -/
  | frame (f : FrameBits)
  /-- DEINTERLEAVE. -/
  | words (v : Words)
  /-- BCHDEC: `Ok(D, flag)` or, as `none`, `Fail`. -/
  | wordResult (r : Option (Group × Nat))
  /-- DECODE: `Decoded(I, eflag)` or, as `none`, `Uncorrectable`. -/
  | telegram (r : Option Telegram)
  deriving DecidableEq, Repr

/-- The state of one instance. -/
structure State where
  /-- The configuration (00_scope.md R6). Not state of the spec (R10): nothing writes it. MODEL's own field, log entry 1. -/
  K : Params
  /-- The demodulator state. -/
  dem : Demod
  /-- `CFG` (R21). -/
  cfg : BitVec 3
  /-- `FLAGS` (R22). -/
  flags : BitVec 2
  /-- `stat` (R23). -/
  stat : Stat
  /-- The receive result registers (R24). -/
  rx : RxResult
  /-- `clk` (R25). -/
  clk : Nat
  /-- The transmit registers (R27). -/
  tx : Transmit
  /-- Requests presented and not yet performed, the next first. MODEL's own field, log entry 3. -/
  reqs : List Req
  /-- The events of the current request, in the order emitted (R31). MODEL's own field, log entry 4. -/
  out : List Event
  /-- The value returned by the latest internal function performed on its own. MODEL's own field, log entry 5. -/
  ret : Value
  deriving DecidableEq, Repr

/-- A step of this block never faults: 93_implementation_defined.md says "nothing in this block faults or hangs", and
60_exceptions.md R226 that there are no traps. The type has no constructor, so nothing raises one. -/
inductive Fault where
  deriving DecidableEq, Repr

/-- Why a step has no meaning. -/
inductive Refusal where
  /-- The operation has no meaning in this model. Raised by no arm of `exec`: every row of the table has its meaning. It
  would be safe: it stops where the block goes on. -/
  | notModelled (mnemonic : String)
  deriving DecidableEq, Repr

/-- The demodulator state after reset (R30). -/
def Demod.reset (K : Params) : Demod where
  t := 0
  mode := .unsync
  bidx := 0
  win := List.replicate K.w 0
  wfill := 0
  thr := K.thrInit
  wait := 3 * K.bitT / 2
  curBit := false
  curLvl := 0
  sr := 0#33
  nb := 0
  hl := List.replicate 33 0
  hw := List.replicate 33 0
  origin := 0
  syncLevel := 0
  jit := 0
  fb := 0#150
  rxMarker := false
  skipseen := false

/-- The receive result registers after reset (R30). -/
def RxResult.reset : RxResult where
  payload := 0#64
  opcode := 0#6
  pad := 0#6
  eflag := List.replicate 10 0
  errcnt := 0
  level := 0
  syncerr := 0
  tvalid := false
  jitter := 0

/-- The transmit registers after reset (R30). -/
def Transmit.reset : Transmit where
  txn := 0#184
  pend := false
  txf := 0#184
  act := false
  idx := 0
  bit := false

/-- Every state element at its reset value (R30) under the configuration `K`, no request pending, nothing returned. -/
def State.resetWith (K : Params) : State where
  K := K
  dem := Demod.reset K
  cfg := 0#3
  flags := 0#2
  stat := .none
  rx := RxResult.reset
  clk := 0
  tx := Transmit.reset
  reqs := []
  out := []
  ret := .none

/-- The machine right after reset (70_reset_and_hazards.md R250), of an instance built with REFCFG (log entry 1). -/
def State.reset : State := State.resetWith refcfg

end Sys2Proof.Machine
end

