-- ==== Sys2Proof/Machine/Ops.lean ====
section
/-! DEFINITION. The named operations over state that the meanings share: the output of a request, the value an internal
function returns, access to the arrays, and reading by the environment. The block has no addressed memory
(20_memory.md R40), and no exception entry or return to share (60_exceptions.md R226, R227). -/

namespace Sys2Proof.Machine

/-- `emit E(args)`: append an event to the output of the current request (00_scope.md R7, 10_state.md R31). -/
def emit (e : Event) (s : State) : State := { s with out := s.out ++ [e] }

/-- A request begins with an empty output (R31); nothing has been returned. -/
def beginRequest (s : State) : State := { s with out := [], ret := .none }

/-- An internal function performed on its own returns `v` and writes no state of the spec (log entry 5). -/
def returns (v : Value) (s : State) : State := { s with ret := v }

/-- `fb[bidx - 34] <- b` (40_demod.md R107); with an index outside 0..149 the buffer after it is free (log
entry 6). -/
def writeFb (d : Demod) (b : Bool) : Coded :=
  if 34 ≤ d.bidx ∧ d.bidx < 184 then setBitAt d.fb (d.bidx - 34) b else Config.freeFrameBuffer d.bidx d.fb

/-- `txf[txidx]` (41_framer.md R135); outside 0..183 the value is free (log entry 7). -/
def readTxf (x : Transmit) : Bool :=
  if x.idx < 184 then bitAt x.txf x.idx else Config.freeTxBit x.idx

/-- `slot = clk div SLOT_T` (10_state.md R25, 43_clock.md R181). -/
def slot (s : State) : Nat := s.clk / s.K.slotT

/-- What the environment can read at any time (10_state.md R29, 44_control.md R205). -/
structure Readable where
  cfg : BitVec 3
  flags : BitVec 2
  stat : Stat
  rx : RxResult
  rxMarker : Bool
  mode : Mode
  clk : Nat
  slot : Nat
  txPend : Bool
  txAct : Bool
  deriving DecidableEq, Repr

/-- Reading: plain values, no effect (R205). -/
def readable (s : State) : Readable where
  cfg := s.cfg
  flags := s.flags
  stat := s.stat
  rx := s.rx
  rxMarker := s.dem.rxMarker
  mode := s.dem.mode
  clk := s.clk
  slot := slot s
  txPend := s.tx.pend
  txAct := s.tx.act

/-- The request the environment issues to copy the clock phase of one instance to another: `CLKLOAD` of the `clk` it
read (43_clock.md R186). DESIGN CHOICE (log entry 16): of a `clk` of 2^64 or more, which the argument cannot hold, it sends
the low 64 bits. -/
def copyClockRequest (r : Readable) : Req := mkReq 0x6#4 (BitVec.ofNat 64 r.clk)

end Sys2Proof.Machine
end

