-- ==== Sys2Proof/Machine/Operands.lean ====
section
/-! DEFINITION. How a request reads its argument (30_encoding.md R61), and the fields of `CFG` (10_state.md R21). -/

namespace Sys2Proof.Machine

open Sys2Proof.Config

/-- `SAMPLE` reads `sext_SW(arg)` (R61). -/
def sampleOperand (K : Params) (arg : Arg) : Int := sext K.sw arg.toNat

/-- `CLKLOAD` reads `zext_64(arg) mod SUPER_T` (R61, 43_clock.md R185). -/
def clockOperand (K : Params) (arg : Arg) : Nat := zext 64 arg.toNat % superT K

/-- `CFG[0] = dtype`: true for ZC, false for SLOPE (R21). -/
def dtypeZc (cfg : BitVec 3) : Bool := cfg.getLsbD 0

/-- `CFG[1] = inv` (R21). -/
def inv (cfg : BitVec 3) : Bool := cfg.getLsbD 1

/-- `CFG[2] = corr_en` (R21). -/
def corrEn (cfg : BitVec 3) : Bool := cfg.getLsbD 2

/-- `b = c.pol xor CFG.inv` (40_demod.md R98). -/
def bitValue (cfg : BitVec 3) (c : Change) : Bool := c.pol ^^ inv cfg

end Sys2Proof.Machine
end

