-- ==== Sys2Proof/Machine/Flags.lean ====
section
/-! DEFINITION. The sticky bits of `FLAGS` (10_state.md R22, 60_exceptions.md R225) and the codes of `stat` (R23). -/

namespace Sys2Proof.Machine

/-- `FLAGS[0] <- 1`: `tx_ovr` (R22). -/
def withTxOvr (f : BitVec 2) : BitVec 2 := f ||| 0b01#2

/-- `FLAGS[1] <- 1`: `req_err` (R22). -/
def withReqErr (f : BitVec 2) : BitVec 2 := f ||| 0b10#2

/-- The number of a `stat` value (R23). -/
def statCode : Stat → Nat
  | .none => 0
  | .ok => 1
  | .okCorrected => 2
  | .uncorrectable => 3
  | .idleDiscard => 4

/-- `stat` of an accepted frame: `1 if errcnt = 0 else 2` (40_demod.md R108). -/
def acceptedStat (errcnt : Nat) : Stat := if errcnt = 0 then .ok else .okCorrected

/-- A reserved request: `FLAGS[1] <- 1`, nothing else (44_control.md R203). -/
def reservedRequest (s : State) : State := { beginRequest s with flags := withReqErr s.flags }

end Sys2Proof.Machine
end

