-- ==== Sys2Proof/Machine/Codec.lean ====
section
/-! DEFINITION. The telegram codec (42_codec.md): padding, the (15,7) block code and its distance-2 decoder, the interleaver,
whole telegrams, the all-identical test; and the meanings of the internal operations of that file. All are pure
functions of operands and configuration (R150). -/

namespace Sys2Proof.Machine

open Sys2Proof.Config

/-- `PAD(P) := P ++ PAD6` (R151, 30_encoding.md R63). -/
def pad (K : Params) (p : Payload) : Info := p ++ K.pad6

/-- The payload half of `UNPAD(I)`: `I[0..63]` (R151). -/
def unpadPayload (i : Info) : Payload := slice i 0 64

/-- The pad half of `UNPAD(I)`: `I[64..69]` (R151). -/
def unpadPad (i : Info) : BitVec 6 := slice i 64 6

/-- The opcode field `P[0..5]` (30_encoding.md R62). -/
def opcodeOf (p : Payload) : BitVec 6 := slice p 0 6

/-- The redundancy bits of a group: the exclusive or of `GEN[j]` over the data bits that are 1 (R153). -/
def redundancy (K : Params) (d : Group) : BitVec 8 :=
  ([0, 1, 2, 3, 4, 5, 6] : List (Fin 7)).foldl (fun (r : BitVec 8) (j : Fin 7) => if bitAt d j.val then r ^^^ K.gen[j.val] else r) 0#8

/-- `BCHENC(D)`: data bits, then redundancy bits (R153, 30_encoding.md R64). -/
def bchEnc (K : Params) (d : Group) : CodeWord := d ++ redundancy K d

/-- The data bits `w[0..6]` of a word (R154). -/
def dataBits (w : CodeWord) : Group := slice w 0 7

/-- Membership in `CODE`: `BCHENC(w[0..6]) = w` (R154, 20_memory.md R43). -/
def isCode (K : Params) (w : CodeWord) : Bool := decide (bchEnc K (dataBits w) = w)

/-- `CODE` as a table: the 128 code words, in the order of their data bits (R154, 10_state.md R28). -/
def codeTable (K : Params) : List CodeWord := (List.range 128).map fun d => bchEnc K (BitVec.ofNat 7 d)

/-- The pairs `i < j` of bit indices of a word, in the order of the loops of R158. -/
def bitPairs : List (Nat × Nat) :=
  (List.range 14).flatMap fun i => (List.range (14 - i)).map fun k => (i, i + 1 + k)

/-- The words within distance 2 of `w` in the order R158 tries them, each with the number of bits flipped. -/
def candidates (w : CodeWord) : List (CodeWord × Nat) :=
  (w, 0) :: ((List.range 15).map fun i => (flipBit w i, 1))
    ++ bitPairs.map fun p => (flipBit (flipBit w p.1) p.2, 2)

/-- `BCHDEC(w)`: the first candidate in `CODE`, its data bits and the flag; none is `Fail` (R158). -/
def bchDec (K : Params) (w : CodeWord) : Option (Group × Nat) :=
  ((candidates w).find? fun c => isCode K c.1).map fun c => (dataBits c.1, c.2)

/-- `INTERLEAVE`: `X[10 * c + g] = CW_g[c]` (R155). -/
def interleave (cw : Words) : Coded :=
  ofBits 150 fun n => bitAt (cw[n % 10]'(Nat.mod_lt n (by decide))) (n / 10)

/-- `DEINTERLEAVE`: `V_g[c] = Y[10 * c + g]` (R157). -/
def deinterleave (y : Coded) : Words :=
  Vector.ofFn fun g => ofBits 15 fun c => bitAt y (10 * c + g)

/-- Group `g` of an information vector: `D_g[j] = I[7 * g + j]` (30_encoding.md R65). -/
def groupOf (i : Info) (g : Nat) : Group := slice i (7 * g) 7

/-- `ENCODE(P)` (R156). -/
def encodeTelegram (K : Params) (p : Payload) : Coded :=
  interleave (Vector.ofFn fun g => bchEnc K (groupOf (pad K p) g))

/-- The information vector with these ten groups: `I[7 * g + j] = D_g[j]` (30_encoding.md R65). -/
def joinGroups (ds : List Group) : Info :=
  ofBits 70 fun n => bitAt (ds.getD (n / 7) 0#7) (n % 7)

/-- Decode every word; none if any word fails (R160). -/
def decodeWords (K : Params) : List CodeWord → Option (List (Group × Nat))
  | [] => some []
  | w :: ws =>
    match bchDec K w with
    | none => none
    | some r =>
      match decodeWords K ws with
      | none => none
      | some rs => some (r :: rs)

/-- `DECODE(Y)`: none is `Uncorrectable` (R160). -/
def decodeTelegram (K : Params) (y : Coded) : Option Telegram :=
  match decodeWords K (deinterleave y).toList with
  | none => none
  | some rs => some { info := joinGroups (rs.map Prod.fst), eflag := rs.map Prod.snd }

/-- `IDLECHK(P)`: all 64 payload bits are equal (R161). -/
def idleChk (p : Payload) : Bool :=
  (List.range 64).all (fun i => !bitAt p i) || (List.range 64).all (fun i => bitAt p i)

/-- The smallest distance of the code from the zero word, the code being linear, is at least 5 (R152). -/
def minDistanceFive (K : Params) : Bool :=
  (List.range 128).all fun d => decide (d = 0) || decide (5 ≤ weight (bchEnc K (BitVec.ofNat 7 d)))

/-! ### Meanings -/

/-- `PAD` and its inverse (R151). -/
def execPad (f : PadForm) (s : State) : Host.Outcome State Fault Refusal :=
  match f with
  | .pad p => .next (returns (.info (pad s.K p)) s)
  | .unpad i => .next (returns (.unpadded (unpadPayload i) (unpadPad i)) s)

/-- `BCHENC` (R153). -/
def execBchenc (d : Group) (s : State) : Host.Outcome State Fault Refusal :=
  .next (returns (.word (bchEnc s.K d)) s)

/-- `INTERLEAVE` (R155). -/
def execInterleave (cw : Words) (s : State) : Host.Outcome State Fault Refusal :=
  .next (returns (.coded (interleave cw)) s)

/-- `ENCODE` (R156). -/
def execEncode (p : Payload) (s : State) : Host.Outcome State Fault Refusal :=
  .next (returns (.coded (encodeTelegram s.K p)) s)

/-- `DEINTERLEAVE` (R157). -/
def execDeinterleave (y : Coded) (s : State) : Host.Outcome State Fault Refusal :=
  .next (returns (.words (deinterleave y)) s)

/-- `BCHDEC` (R158). -/
def execBchdec (w : CodeWord) (s : State) : Host.Outcome State Fault Refusal :=
  .next (returns (.wordResult (bchDec s.K w)) s)

/-- `DECODE` (R160). -/
def execDecode (y : Coded) (s : State) : Host.Outcome State Fault Refusal :=
  .next (returns (.telegram (decodeTelegram s.K y)) s)

/-- `IDLECHK` (R161). -/
def execIdlechk (p : Payload) (s : State) : Host.Outcome State Fault Refusal :=
  .next (returns (.bool (idleChk p)) s)

end Sys2Proof.Machine
end

