-- ==== Sys2Proof/Machine/Framer.lean ====
section
/-! DEFINITION. The framer (41_framer.md): sync detection, frame assembly, the transmit serializer; and the meanings of
SYNCDET, FRAME, TXBIT and TXLOAD. -/

namespace Sys2Proof.Machine

open Sys2Proof.Config

/-- `SYNC33 = SYNC11 ++ SYNC11 ++ SYNC11` (30_encoding.md R68). -/
def sync33 (K : Params) : SyncWindow := K.sync11 ++ K.sync11 ++ K.sync11

/-- `SYNCDET(sr) := ham(sr, SYNC33) <= SYNC_MAXERR` (R131). -/
def syncDet (K : Params) (w : SyncWindow) : Bool := decide (ham w (sync33 K) ≤ syncMaxErr)

/-- `FRAME(X) := SYNC11 ++ SYNC11 ++ SYNC11 ++ [MARKER] ++ X` (R133, 30_encoding.md R67). -/
def frame (K : Params) (x : Coded) : FrameBits := sync33 K ++ BitVec.ofBool K.marker ++ x

/-- `q`: the index of the bit period now starting within its `RXPER_T` period (R135). -/
def bitPeriodIndex (s : State) : Nat := s.clk % s.K.rxperT / s.K.bitT

/-- The transmit registers once a pending frame has been started, if it starts at this boundary (R135). -/
def startPending (s : State) : Transmit :=
  if s.tx.pend && !s.tx.act && decide (bitPeriodIndex s = s.K.txoffBits) then
    { s.tx with txf := s.tx.txn, pend := false, act := true, idx := 0 }
  else s.tx

/-- `TXBIT()`: one bit boundary of the local clock (R135). -/
def txBoundary (s : State) : State :=
  let x := startPending s
  if x.act then
    let b := readTxf x
    emit (.txbit b) { s with tx := { x with bit := b, idx := x.idx + 1, act := decide (x.idx + 1 ≠ 184) } }
  else { s with tx := x }

/-- `TXLOAD(P)` (R134): dropped with `tx_ovr` while a telegram is pending, else encoded, framed and made pending. -/
def txLoad (p : Payload) (s : State) : State :=
  if s.tx.pend then { s with flags := withTxOvr s.flags }
  else { s with tx := { s.tx with txn := frame s.K (encodeTelegram s.K p), pend := true } }

/-! ### Meanings -/

/-- `SYNCDET` (R131). -/
def execSyncdet (w : SyncWindow) (s : State) : Host.Outcome State Fault Refusal :=
  .next (returns (.bool (syncDet s.K w)) s)

/-- `FRAME` (R133). -/
def execFrame (x : Coded) (s : State) : Host.Outcome State Fault Refusal :=
  .next (returns (.frame (frame s.K x)) s)

/-- `TXBIT` (R135). -/
def execTxbit (s : State) : Host.Outcome State Fault Refusal := .next (txBoundary s)

/-- `TXLOAD` (R134). -/
def execTxload (p : Payload) (s : State) : Host.Outcome State Fault Refusal :=
  .next (txLoad p (beginRequest s))

end Sys2Proof.Machine
end

