-- ==== Sys2Proof/Machine/Clock.lean ====
section
/-! DEFINITION. The local clock (43_clock.md): its tick, the sync error, the correction and the load; and the meanings of
CLKTICK, SYNCERR, CLKCORR and CLKLOAD. -/

namespace Sys2Proof.Machine

open Sys2Proof.Config

/-- `CLKTICK()`: one sample period passes on the local clock; at a bit boundary `TXBIT` is invoked (R180). -/
def clkTick (s : State) : State :=
  let s' := { s with clk := (s.clk + s.K.tps) % superT s.K }
  if s'.clk / s.K.bitT ≠ s.clk / s.K.bitT then txBoundary s' else s'

/-- The local clock's reading at the demodulator time `origin` (R182, R183). -/
def clockAt (s : State) (origin : Int) : Int := ((s.clk : Int) - ((s.dem.t : Int) - origin)) % (superT s.K : Int)

/-- `SYNCERR(origin)`: the distance of the clock's reading from the nearest expected position, in
`-RXPER_T/2 .. RXPER_T/2 - 1` (R183). -/
def syncErr (s : State) (origin : Int) : Int :=
  (clockAt s origin - (s.K.originT : Int) + (s.K.rxperT : Int) / 2) % (s.K.rxperT : Int) - (s.K.rxperT : Int) / 2

/-- How far a sync error moves the clock: all of it beyond half a bit, else half of it truncated toward zero (R184). -/
def correction (K : Params) (e : Int) : Int :=
  if (e.natAbs : Int) > (K.bitT : Int) / 2 then e else e.tdiv 2

/-- `CLKCORR(e)` (R184). -/
def clkCorr (e : Int) (s : State) : State :=
  { s with clk := (((s.clk : Int) - correction s.K e) % (superT s.K : Int)).toNat }

/-- `CLKLOAD(v)` (R185). -/
def clkLoad (v : Nat) (s : State) : State := { s with clk := v }

/-! ### Meanings -/

/-- `CLKTICK` (R180). -/
def execClktick (s : State) : Host.Outcome State Fault Refusal := .next (clkTick s)

/-- `SYNCERR` (R183). -/
def execSyncerr (origin : Int) (s : State) : Host.Outcome State Fault Refusal :=
  .next (returns (.ticks (syncErr s origin)) s)

/-- `CLKCORR` (R184). -/
def execClkcorr (e : Int) (s : State) : Host.Outcome State Fault Refusal := .next (clkCorr e s)

/-- `CLKLOAD` (R185). -/
def execClkload (arg : Arg) (s : State) : Host.Outcome State Fault Refusal :=
  .next (clkLoad (clockOperand s.K arg) (beginRequest s))

end Sys2Proof.Machine
end

