-- ==== Sys2Proof/Machine/Demod.lean ====
section
/-! DEFINITION. The demodulator and bit synchronizer (40_demod.md): the window, the two classifiers, acceptance, the two
mode steps, the history, lock, the frame bits, the end of a frame; and the meanings of those operations and of the requests
SAMPLE and SAMPLESKIP. -/

namespace Sys2Proof.Machine

open Sys2Proof.Config

/-! ### The window and the classifiers -/

/-- `WINPUSH(s)` (R94). -/
def winPush (x : Int) (s : State) : State :=
  { s with dem := { s.dem with win := shiftIn s.dem.win x, wfill := min s.K.w (s.dem.wfill + 1) } }

/-- One pair of neighbouring samples: the index `i` of the newer one, `win[i-1]` and `win[i]`. -/
structure Pair where
  idx : Nat
  old : Int
  new : Int
  deriving DecidableEq, Repr

/-- The pairs of neighbouring samples, `i` from `i0` on. -/
def pairsFrom (i0 : Nat) : List Int → List Pair
  | [] => []
  | [_] => []
  | a :: b :: rest => { idx := i0, old := a, new := b } :: pairsFrom (i0 + 1) (b :: rest)

/-- The pairs `(win[i-1], win[i])` for `i` in `1..W-1` (R95). -/
def pairs (win : List Int) : List Pair := pairsFrom 1 win

/-- `|d[i]|`, the size of the step of a pair (R95, R96). -/
def Pair.size (p : Pair) : Nat := (p.new - p.old).natAbs

/-- The largest step among pairs (R95, R96). -/
def maxSize (ps : List Pair) : Nat := ps.foldl (fun m p => max m p.size) 0

/-- The first pair, that is the one of least index, with the largest step (R95, R96). -/
def steepest (ps : List Pair) : Option Pair := ps.find? fun p => decide (p.size = maxSize ps)

/-- `max(win) - min(win)`: the spread of the window (R93). -/
def spread : List Int → Nat
  | [] => 0
  | a :: rest => (rest.foldl max a - rest.foldl min a).toNat

/-- The result when a window holds no candidate (R95, R96). -/
def noChange (win : List Int) : Change := { found := false, peak := 0, pol := false, level := spread win }

/-- `CLASSIFY.SLOPE(win)` (R95). -/
def classifySlope (win : List Int) : Change :=
  if maxSize (pairs win) = 0 then noChange win
  else
    match steepest (pairs win) with
    | none => noChange win
    | some p => { found := true, peak := p.idx, pol := decide (p.new - p.old > 0), level := spread win }

/-- `neg(win[i-1]) /= neg(win[i])`: the pair crosses zero; zero counts as non-negative (R96). -/
def Pair.crosses (p : Pair) : Bool := decide (p.old < 0) != decide (p.new < 0)

/-- The set `Z` of R96. -/
def crossings (win : List Int) : List Pair := (pairs win).filter Pair.crosses

/-- `CLASSIFY.ZC(win)` (R96). -/
def classifyZc (win : List Int) : Change :=
  match steepest (crossings win) with
  | none => noChange win
  | some p => { found := true, peak := p.idx, pol := decide (p.new ≥ 0), level := spread win }

/-- The classifier `CFG.dtype` selects (R91). -/
def classify (cfg : BitVec 3) (win : List Int) : Change :=
  if dtypeZc cfg then classifyZc win else classifySlope win

/-- `ACCEPT(c, thr) := c.found and c.peak = MID and c.level > thr` (R97). -/
def accept (K : Params) (c : Change) (thr : Nat) : Bool :=
  c.found && decide (c.peak = mid K) && decide (c.level > thr)

/-! ### Lock -/

/-- The mean arrival time of the sync bits (R105). -/
def meanArrival (hw : List Int) : Int := hw.sum / 33

/-- The mean change level of the sync bits (R105). -/
def meanLevel (hl : List Nat) : Nat := hl.sum / 33

/-- The largest distance of an arrival time from its nominal one, `origin + (k - 16) * BIT_T`, over the entries from
index `k` on (R105). -/
def jitterFrom (K : Params) (origin : Int) (k : Nat) : List Int → Nat
  | [] => 0
  | a :: rest => max (a - (origin + ((k : Int) - 16) * (K.bitT : Int))).natAbs (jitterFrom K origin (k + 1) rest)

/-- `LOCK()` (R105). -/
def lock (s : State) : State :=
  let origin := meanArrival s.dem.hw
  let level := meanLevel s.dem.hl
  { s with dem := { s.dem with
      origin := origin
      syncLevel := level
      jit := jitterFrom s.K origin 0 s.dem.hw
      thr := level * s.K.lockNum / s.K.lockDen
      bidx := 33
      wait := origin + 17 * (s.K.bitT : Int) + (s.K.phaseT : Int) - (s.dem.t : Int)
      mode := .locked } }

/-! ### Unsynchronized mode -/

/-- The three histories move one place together and `nb` counts the bit, saturating at 33 (R103, 20_memory.md R42). -/
def pushHistory (b : Bool) (l : Nat) (a : Int) (d : Demod) : Demod :=
  { d with sr := shiftBits d.sr b, hl := shiftIn d.hl l, hw := shiftIn d.hw a, nb := min 33 (d.nb + 1) }

/-- `BITOUT(b, l, a)` (R103). -/
def bitOut (b : Bool) (l : Nat) (a : Int) (s : State) : State :=
  let s' := emit (.rawbit b l) { s with dem := pushHistory b l a s.dem }
  if decide (s'.dem.nb = 33) && syncDet s'.K s'.dem.sr then lock s' else s'

/-- `UNSYNC_STEP(acc, c)` (R99-R102): an accepted transition has priority over an expired wait (R101). -/
def unsyncStep (acc : Bool) (c : Change) (s : State) : State :=
  if acc then
    let b := bitValue s.cfg c
    bitOut b c.level (s.dem.t : Int) { s with dem := { s.dem with
      curBit := b, curLvl := c.level, thr := thrNext s.K s.dem.thr (.accepted c.level), wait := 3 * (s.K.bitT : Int) / 2 } }
  else if s.dem.wait ≤ 0 then
    bitOut s.dem.curBit s.dem.curLvl ((s.dem.t : Int) - (s.K.bitT : Int) / 2) { s with dem := { s.dem with
      thr := thrNext s.K s.dem.thr .repeated, wait := s.dem.wait + (s.K.bitT : Int) } }
  else s

/-! ### Locked mode -/

/-- The receive result of an accepted telegram (R108, 10_state.md R24). -/
def rxResultOf (s : State) (g : Telegram) : RxResult :=
  let p := unpadPayload g.info
  let tvalid := !s.dem.skipseen
  { payload := p
    opcode := opcodeOf p
    pad := unpadPad g.info
    eflag := g.eflag
    errcnt := g.eflag.sum
    level := s.dem.syncLevel
    syncerr := if tvalid then syncErr s s.dem.origin else 0
    tvalid := tvalid
    jitter := s.dem.jit }

/-- An accepted telegram: status, result registers, `RXFRAME`, then the clock correction (R108). -/
def acceptTelegram (g : Telegram) (s : State) : State :=
  let r := rxResultOf s g
  let s' := emit (.rxframe r) { s with stat := acceptedStat r.errcnt, rx := r }
  if corrEn s.cfg && r.tvalid then clkCorr r.syncerr s' else s'

/-- What becomes of a complete frame: F3, F4 or acceptance (R108). -/
def settleFrame (s : State) : State :=
  match decodeTelegram s.K s.dem.fb with
  | none => { s with stat := .uncorrectable }
  | some g => if idleChk (unpadPayload g.info) then { s with stat := .idleDiscard } else acceptTelegram g s

/-- `skipseen <- 0` (R108). -/
def clearSkip (s : State) : State := { s with dem := { s.dem with skipseen := false } }

/-- `FRAMEDONE()` (R108). -/
def frameDone (s : State) : State :=
  clearSkip (settleFrame { s with dem := { s.dem with mode := .unsync, nb := 0 } })

/-- The marker or one coded bit is stored, and the index counts (R107). -/
def storeFrameBit (b : Bool) (d : Demod) : Demod :=
  if d.bidx = 33 then { d with rxMarker := b, bidx := d.bidx + 1 }
  else { d with fb := writeFb d b, bidx := d.bidx + 1 }

/-- `FRAMEBIT(b)` (R107). -/
def frameBit (b : Bool) (s : State) : State :=
  let s' := { emit (.rawbit b s.dem.curLvl) s with dem := storeFrameBit b s.dem }
  if s'.dem.bidx = 184 then frameDone s' else s'

/-- An accepted transition while locked records the state the signal is now in, and nothing else (R106). -/
def trackLevel (acc : Bool) (c : Change) (s : State) : State :=
  if acc then { s with dem := { s.dem with curBit := bitValue s.cfg c, curLvl := c.level } } else s

/-- `LOCKED_STEP(acc, c)` (R106). -/
def lockedStep (acc : Bool) (c : Change) (s : State) : State :=
  let s' := trackLevel acc c s
  if s'.dem.wait ≤ 0 then
    frameBit s'.dem.curBit { s' with dem := { s'.dem with wait := s'.dem.wait + (s'.K.bitT : Int) } }
  else s'

/-! ### Requests -/

/-- The classifier result of a `SAMPLE`: none is made until the window is full (R91, R41). -/
def observe (s : State) : Change := classify s.cfg s.dem.win

/-- Whether a `SAMPLE` accepts a transition (R91). -/
def observed (s : State) : Bool := decide (s.dem.wfill = s.K.w) && accept s.K (observe s) s.dem.thr

/-- `t <- t + TPS` (R91). -/
def advanceTime (s : State) : State := { s with dem := { s.dem with t := s.dem.t + s.K.tps } }

/-- `wait <- wait - TPS` (R91). -/
def countDown (s : State) : State := { s with dem := { s.dem with wait := s.dem.wait - (s.K.tps : Int) } }

/-- The step of the mode the sequencer is in (R91). -/
def modeStep (acc : Bool) (c : Change) (s : State) : State :=
  match s.dem.mode with
  | .unsync => unsyncStep acc c s
  | .locked => lockedStep acc c s

/-- `SAMPLE(x)` (R91, R229). -/
def takeSample (x : Int) (s : State) : State :=
  let s' := winPush x (advanceTime (clkTick s))
  modeStep (observed s') (observe s') (countDown s')

/-- `SAMPLESKIP()` (R92). -/
def skipSample (s : State) : State :=
  let s' := clkTick s
  { s' with dem := { s'.dem with skipseen := true } }

/-! ### Meanings -/

/-- `SAMPLE` (R91). -/
def execSample (arg : Arg) (s : State) : Host.Outcome State Fault Refusal :=
  .next (takeSample (sampleOperand s.K arg) (beginRequest s))

/-- `SAMPLESKIP` (R92). -/
def execSampleskip (s : State) : Host.Outcome State Fault Refusal := .next (skipSample (beginRequest s))

/-- `WINPUSH` (R94). -/
def execWinpush (x : Int) (s : State) : Host.Outcome State Fault Refusal := .next (winPush x s)

/-- `CLASSIFY.SLOPE` (R95). -/
def execClassifySlope (win : List Int) (s : State) : Host.Outcome State Fault Refusal :=
  .next (returns (.change (classifySlope win)) s)

/-- `CLASSIFY.ZC` (R96). -/
def execClassifyZc (win : List Int) (s : State) : Host.Outcome State Fault Refusal :=
  .next (returns (.change (classifyZc win)) s)

/-- `ACCEPT` (R97). -/
def execAccept (c : Change) (thr : Nat) (s : State) : Host.Outcome State Fault Refusal :=
  .next (returns (.bool (accept s.K c thr)) s)

/-- `UNSYNC_STEP` (R99). -/
def execUnsyncStep (acc : Bool) (c : Change) (s : State) : Host.Outcome State Fault Refusal :=
  .next (unsyncStep acc c s)

/-- `BITOUT` (R103). -/
def execBitout (b : Bool) (l : Nat) (a : Int) (s : State) : Host.Outcome State Fault Refusal :=
  .next (bitOut b l a s)

/-- `LOCK` (R105). -/
def execLock (s : State) : Host.Outcome State Fault Refusal := .next (lock s)

/-- `LOCKED_STEP` (R106). -/
def execLockedStep (acc : Bool) (c : Change) (s : State) : Host.Outcome State Fault Refusal :=
  .next (lockedStep acc c s)

/-- `FRAMEBIT` (R107). -/
def execFramebit (b : Bool) (s : State) : Host.Outcome State Fault Refusal := .next (frameBit b s)

/-- `FRAMEDONE` (R108). -/
def execFramedone (s : State) : Host.Outcome State Fault Refusal := .next (frameDone s)

end Sys2Proof.Machine
end

