-- ==== Sys2Proof/Machine/Control.lean ====
section
/-! DEFINITION. The control requests (44_control.md): RESET, CFGWR, NOP and the reserved codes. -/

namespace Sys2Proof.Machine

/-- `NOP`: no state changes, no event is emitted (R202). -/
def execNop (s : State) : Host.Outcome State Fault Refusal := .next (beginRequest s)

/-- `RESET`: every state element gets its reset value; the configuration is not affected, nor are the requests that
follow (R200, log entry 3). -/
def execReset (s : State) : Host.Outcome State Fault Refusal :=
  .next { State.resetWith s.K with reqs := s.reqs }

/-- `CFGWR` (R201). -/
def execCfgwr (c : BitVec 3) (s : State) : Host.Outcome State Fault Refusal :=
  .next { beginRequest s with cfg := c }

/-- Reserved code 0x7 (R203). -/
def execReserved7 (s : State) : Host.Outcome State Fault Refusal := .next (reservedRequest s)

/-- Reserved code 0x8 (R203). -/
def execReserved8 (s : State) : Host.Outcome State Fault Refusal := .next (reservedRequest s)

/-- Reserved code 0x9 (R203). -/
def execReserved9 (s : State) : Host.Outcome State Fault Refusal := .next (reservedRequest s)

/-- Reserved code 0xA (R203). -/
def execReservedA (s : State) : Host.Outcome State Fault Refusal := .next (reservedRequest s)

/-- Reserved code 0xB (R203). -/
def execReservedB (s : State) : Host.Outcome State Fault Refusal := .next (reservedRequest s)

/-- Reserved code 0xC (R203). -/
def execReservedC (s : State) : Host.Outcome State Fault Refusal := .next (reservedRequest s)

/-- Reserved code 0xD (R203). -/
def execReservedD (s : State) : Host.Outcome State Fault Refusal := .next (reservedRequest s)

/-- Reserved code 0xE (R203). -/
def execReservedE (s : State) : Host.Outcome State Fault Refusal := .next (reservedRequest s)

/-- Reserved code 0xF (R203). -/
def execReservedF (s : State) : Host.Outcome State Fault Refusal := .next (reservedRequest s)

end Sys2Proof.Machine
end

