-- ==== Sys2Proof/Machine/Dispatch.lean ====
section
/-! DEFINITION. One arm per operation: the dispatch of 44_control.md R204 and, for the internal operations, the invocation
of 00_scope.md R7. -/

namespace Sys2Proof.Machine

def exec (i : Instr) (s : State) : Host.Outcome State Fault Refusal :=
  match i with
  | .nop => Sys2Proof.Machine.execNop s
  | .reset => Sys2Proof.Machine.execReset s
  | .cfgwr c => Sys2Proof.Machine.execCfgwr c s
  | .sample arg => Sys2Proof.Machine.execSample arg s
  | .sampleskip => Sys2Proof.Machine.execSampleskip s
  | .txload p => Sys2Proof.Machine.execTxload p s
  | .clkload arg => Sys2Proof.Machine.execClkload arg s
  | .reserved7 => Sys2Proof.Machine.execReserved7 s
  | .reserved8 => Sys2Proof.Machine.execReserved8 s
  | .reserved9 => Sys2Proof.Machine.execReserved9 s
  | .reservedA => Sys2Proof.Machine.execReservedA s
  | .reservedB => Sys2Proof.Machine.execReservedB s
  | .reservedC => Sys2Proof.Machine.execReservedC s
  | .reservedD => Sys2Proof.Machine.execReservedD s
  | .reservedE => Sys2Proof.Machine.execReservedE s
  | .reservedF => Sys2Proof.Machine.execReservedF s
  | .clktick => Sys2Proof.Machine.execClktick s
  | .txbit => Sys2Proof.Machine.execTxbit s
  | .winpush x => Sys2Proof.Machine.execWinpush x s
  | .classifySlope win => Sys2Proof.Machine.execClassifySlope win s
  | .classifyZc win => Sys2Proof.Machine.execClassifyZc win s
  | .accept c thr => Sys2Proof.Machine.execAccept c thr s
  | .unsyncStep acc c => Sys2Proof.Machine.execUnsyncStep acc c s
  | .bitout b l a => Sys2Proof.Machine.execBitout b l a s
  | .syncdet w => Sys2Proof.Machine.execSyncdet w s
  | .lock => Sys2Proof.Machine.execLock s
  | .lockedStep acc c => Sys2Proof.Machine.execLockedStep acc c s
  | .framebit b => Sys2Proof.Machine.execFramebit b s
  | .framedone => Sys2Proof.Machine.execFramedone s
  | .syncerr origin => Sys2Proof.Machine.execSyncerr origin s
  | .clkcorr e => Sys2Proof.Machine.execClkcorr e s
  | .pad f => Sys2Proof.Machine.execPad f s
  | .bchenc d => Sys2Proof.Machine.execBchenc d s
  | .interleave cw => Sys2Proof.Machine.execInterleave cw s
  | .encode p => Sys2Proof.Machine.execEncode p s
  | .frame x => Sys2Proof.Machine.execFrame x s
  | .deinterleave y => Sys2Proof.Machine.execDeinterleave y s
  | .bchdec w => Sys2Proof.Machine.execBchdec w s
  | .decode y => Sys2Proof.Machine.execDecode y s
  | .idlechk p => Sys2Proof.Machine.execIdlechk p s

end Sys2Proof.Machine
end

