-- ==== Sys2Proof/Machine/Fetch.lean ====
section
/-! DEFINITION. Taking the next request from those presented (44_control.md R204). The block fetches no instructions
(20_memory.md R50); the requests pending stand in the model's field `reqs` (log entry 3). -/

namespace Sys2Proof.Machine

/-- The next request and the state without it; none when no request is pending. -/
def takeRequest (s : State) : Option (Req × State) :=
  match s.reqs with
  | [] => none
  | r :: rest => some (r, { s with reqs := rest })

/-- Present a request word ahead of those already pending. -/
def presentFirst (r : Req) (s : State) : State := { s with reqs := r :: s.reqs }

/-- Present the request word that the low `nbits` bits of `w` are; a number that is no request word presents nothing. -/
def presentTableWord (nbits w : Nat) (s : State) : State :=
  match reqOfNat (w % 2 ^ nbits) with
  | .ok r => presentFirst r s
  | .error _ => s

end Sys2Proof.Machine
end

