-- ==== Sys2Proof/Machine/Step.lean ====
section
/-! DEFINITION. One step: the next request is taken, decoded and performed to completion (44_control.md R204,
20_memory.md R46). With no request pending nothing happens: only requests make time pass (R202, R231). -/

namespace Sys2Proof.Machine

/-- One step of the instance. -/
def step (s : State) : Host.Outcome State Fault Refusal :=
  match takeRequest s with
  | none => .next s
  | some (r, s') => exec (decode r) s'

/-- `s` with the request word that the low `nbits` bits of `w` are presented as its next request. -/
def State.withFetchWord (s : State) (nbits w : Nat) : State := presentTableWord nbits w s

end Sys2Proof.Machine
end

