-- ==== Sys2Proof/Machine/Trace.lean ====
section
/-! DEFINITION. The trace notation of 30_encoding.md R74: one line per request, the two abbreviations, and the request word
of each line. The block has no assembler; traces are how 95_test_vectors.md writes request streams. -/

namespace Sys2Proof.Machine

open Sys2Proof.Config

/-- One line of a trace (R74). -/
inductive TraceLine where
  | reset
  | nop
  /-- `CFGWR dtype=<SLOPE|ZC> inv=<0|1> corr_en=<0|1>`. -/
  | cfgwr (zc inv corrEn : Bool)
  /-- `SAMPLE <signed decimal>`. -/
  | sample (x : Int)
  | sampleskip
  /-- `TXLOAD 0x<16 hex digits>`. -/
  | txload (p : Payload)
  /-- `CLKLOAD <decimal>`. -/
  | clkload (v : Nat)
  deriving DecidableEq, Repr

/-- The argument of a sample: its low `SW` bits in two's complement, 0 above (R74, R61). DESIGN CHOICE (log entry 17): so
also for a decimal outside the range of `SW` bits, and for `SW` above 64 only the low 64 bits are kept. -/
def sampleArg (K : Params) (x : Int) : Arg := BitVec.ofNat 64 (x % (2 ^ K.sw : Int)).toNat

/-- The request word of a line (R74, R61). DESIGN CHOICE (log entry 17): of a `CLKLOAD` decimal of 2^64 or more the low 64
bits are kept. -/
def lineWord (K : Params) : TraceLine → Req
  | .reset => mkReq 0x1#4 0#64
  | .nop => mkReq 0x0#4 0#64
  | .cfgwr zc inv corrEn => mkReq 0x2#4 (BitVec.ofNat 64 (bitNat zc + 2 * bitNat inv + 4 * bitNat corrEn))
  | .sample x => mkReq 0x3#4 (sampleArg K x)
  | .sampleskip => mkReq 0x4#4 0#64
  | .txload p => mkReq 0x5#4 p
  | .clkload v => mkReq 0x6#4 (BitVec.ofNat 64 v)

/-- `n * { ... }` (R74). -/
def repeatLines (n : Nat) (ls : List TraceLine) : List TraceLine := (List.replicate n ls).flatten

/-- `BITS(<bit string>, A, dc)`: `spb = BIT_T / TPS` samples a bit; none when `spb` is no integer (R74). The sums may leave
the range of a sample (log entry 17). -/
def bitsLines (K : Params) (bs : List Bool) (a dc : Int) : Option (List TraceLine) :=
  if K.bitT % K.tps = 0 then
    some (bs.flatMap fun b => List.replicate (K.bitT / K.tps) (.sample ((if b then a else -a) + dc)))
  else none

/-- The bits of a sequence, first bit first, as `BITS` takes them (R74). -/
def bitList {n : Nat} (v : BitVec n) : List Bool := (List.range n).map fun i => bitAt v i

/-- The request words of a trace. -/
def traceWords (K : Params) (ls : List TraceLine) : List Req := ls.map (lineWord K)

/-- Perform requests in order (20_memory.md R48): the last state and all events in order; none if a request stops. -/
def perform : List Req → State → Option (State × List Event)
  | [], s => some (s, [])
  | r :: rest, s =>
    match exec (decode r) s with
    | .next s' => (perform rest s').map fun q => (q.1, s'.out ++ q.2)
    | .fault _ => none
    | .refused _ => none

end Sys2Proof.Machine
end

