-- ==== Sys2Proof/Safety.lean ====
section
/-! DEFINITION. The terms the statements use: an admissible configuration (00_scope.md R6), the state elements of the spec
(10_state.md R10), and the invariant of a running instance. Of the invariant, the ranges are the spec's; the relations
between elements are consequences of the rules that hold after RESET and are kept by every step. -/

namespace Sys2Proof.Machine

open Sys2Proof.Config

/-- The constraints of R6 on a configuration, with the readings of log entry 8. -/
structure Admissible (K : Params) : Prop where
  /-- `SW >= 2`. -/
  sw_ge : 2 ≤ K.sw
  /-- `W >= 3`. -/
  w_ge : 3 ≤ K.w
  /-- `W` is `BIT_T / TPS` rounded to an integer: `2 * W * TPS` is within `TPS` of `2 * BIT_T` (log entry 8). -/
  w_round : 2 * K.w * K.tps ≤ 2 * K.bitT + K.tps ∧ 2 * K.bitT ≤ 2 * K.w * K.tps + K.tps
  /-- `TPS >= 1`. -/
  tps_pos : 1 ≤ K.tps
  /-- `BIT_T` is even. -/
  bitT_even : K.bitT % 2 = 0
  /-- `BIT_T >= 2 * TPS`. -/
  bitT_ge : 2 * K.tps ≤ K.bitT
  /-- `PHASE_T < BIT_T`. -/
  phaseT_lt : K.phaseT < K.bitT
  /-- `DEN >= 1`. -/
  lockDen_pos : 1 ≤ K.lockDen
  /-- A time slot has a length (log entry 8). -/
  slotT_pos : 1 ≤ K.slotT
  /-- `SLOT_T` is a multiple of `RXPER_T`. -/
  slotT_mult : K.slotT % K.rxperT = 0
  /-- `RXPER_T` is a multiple of `BIT_T`. -/
  rxperT_mult : K.rxperT % K.bitT = 0
  /-- `RXPER_T >= (TXOFF_BITS + 184) * BIT_T`. -/
  rxperT_ge : (K.txoffBits + 184) * K.bitT ≤ K.rxperT
  /-- `ORIGIN_T < RXPER_T`. -/
  originT_lt : K.originT < K.rxperT
  /-- The code `GEN` generates has minimum distance at least 5 (42_codec.md R152). -/
  distance : minDistanceFive K = true

/-- `t` has the same configuration and the same state elements of the spec (R11-R27) as `s`. The model's own fields `reqs`,
`out` and `ret` are not compared. -/
def SameSpec (s t : State) : Prop :=
  t.K = s.K ∧ t.dem = s.dem ∧ t.cfg = s.cfg ∧ t.flags = s.flags ∧ t.stat = s.stat ∧ t.rx = s.rx ∧ t.clk = s.clk ∧ t.tx = s.tx

/-- The invariant of a running instance. -/
structure Inv (s : State) : Prop where
  /-- The configuration meets R6. -/
  admissible : Admissible s.K
  /-- `win` has `W` elements, each a sample (R13). -/
  win_range : windowInRange s.K s.dem.win = true
  /-- `wfill` in `0..W` (R13). -/
  wfill_le : s.dem.wfill ≤ s.K.w
  /-- `nb` in `0..33` (R17). -/
  nb_le : s.dem.nb ≤ 33
  /-- `hl` has 33 entries (R18). -/
  hl_length : s.dem.hl.length = 33
  /-- `hw` has 33 entries (R18). -/
  hw_length : s.dem.hw.length = 33
  /-- A level is at most `2^SW - 1` (70_reset_and_hazards.md R264). -/
  hl_lt : ∀ l ∈ s.dem.hl, l < 2 ^ s.K.sw
  /-- No bit arrived in the future (R104). -/
  hw_le : ∀ a ∈ s.dem.hw, a ≤ (s.dem.t : Int)
  /-- `cur_lvl` is at most `2^SW - 1` (R264). -/
  curLvl_lt : s.dem.curLvl < 2 ^ s.K.sw
  /-- `sync_level` is at most `2^SW - 1` (R264). -/
  syncLevel_lt : s.dem.syncLevel < 2 ^ s.K.sw
  /-- Unsynchronized, `bidx` is 0, or 184 once a frame has completed (40_demod.md R111). -/
  bidx_unsync : s.dem.mode = .unsync → s.dem.bidx = 0 ∨ s.dem.bidx = 184
  /-- Locked, `bidx` runs from 33 to 183 (R12). -/
  bidx_locked : s.dem.mode = .locked → 33 ≤ s.dem.bidx ∧ s.dem.bidx ≤ 183
  /-- Locked, the history holds the 33 bits of the pattern (R103). -/
  nb_locked : s.dem.mode = .locked → s.dem.nb = 33
  /-- Locked, `wait` runs to the sampling instant of frame bit `bidx`: its nominal arrival time plus `PHASE_T` (R105). -/
  locked_instant : s.dem.mode = .locked → (s.dem.t : Int) + s.dem.wait
    = s.dem.origin + ((s.dem.bidx : Int) - 16) * (s.K.bitT : Int) + (s.K.phaseT : Int)
  /-- Until the first lock, `wait` between requests is in `1 .. 3 * BIT_T / 2` (R264). -/
  wait_range : s.dem.bidx = 0 → 0 < s.dem.wait ∧ s.dem.wait ≤ 3 * (s.K.bitT : Int) / 2
  /-- `clk` in `0 .. SUPER_T-1` (R25). -/
  clk_lt : s.clk < superT s.K
  /-- `txidx` in `0..184`; a frame being sent has a bit left (R27, R135). -/
  txidx_range : s.tx.idx ≤ 184 ∧ (s.tx.act = true → s.tx.idx < 184)
  /-- A pending frame is the frame of a telegram (R134). -/
  txn_frame : s.tx.pend = true → ∃ p, s.tx.txn = frame s.K (encodeTelegram s.K p)
  /-- A frame being sent is the frame of a telegram (R135). -/
  txf_frame : s.tx.act = true → ∃ p, s.tx.txf = frame s.K (encodeTelegram s.K p)
  /-- `rx_eflag`: ten values in `{0,1,2}` (R24). -/
  eflag_range : s.rx.eflag.length = 10 ∧ ∀ e ∈ s.rx.eflag, e ≤ 2
  /-- `rx_errcnt` is the sum of `rx_eflag` (R24). -/
  errcnt_eq : s.rx.errcnt = s.rx.eflag.sum
  /-- `rx_opcode` is `P[0..5]` (R24). -/
  opcode_eq : s.rx.opcode = opcodeOf s.rx.payload
  /-- `rx_syncerr` is 0 when `rx_tvalid = 0` (R24), and always in `-RXPER_T/2 .. RXPER_T/2 - 1` (R183). -/
  syncerr_range : (s.rx.tvalid = false → s.rx.syncerr = 0)
    ∧ -((s.K.rxperT : Int) / 2) ≤ s.rx.syncerr ∧ s.rx.syncerr < (s.K.rxperT : Int) / 2
  /-- `stat` says whether the accepted frame had corrected bits (R23). -/
  stat_ok : (s.stat = .ok → s.rx.errcnt = 0) ∧ (s.stat = .okCorrected → 0 < s.rx.errcnt)
  /-- An accepted telegram is not all-identical (R72, R161). -/
  not_idle : s.stat = .ok ∨ s.stat = .okCorrected → idleChk s.rx.payload = false

/-- One `TXBIT` after another, with the local clock standing at each of the given readings in turn: the bit boundaries a
transmitted frame sees, wherever the clock was moved in between (41_framer.md R135). -/
def boundaries : List Nat → State → Option State
  | [], s => some s
  | c :: cs, s =>
    match exec .txbit { s with clk := c } with
    | .next t => boundaries cs t
    | .fault _ => none
    | .refused _ => none

/-- Whether an event is a recovered bit (10_state.md R31). -/
def isRawbit : Event → Bool
  | .rawbit _ _ => true
  | .rxframe _ => false
  | .txbit _ => false

/-- Whether an event is a transmitted bit (R31). -/
def isTxbit : Event → Bool
  | .rawbit _ _ => false
  | .rxframe _ => false
  | .txbit _ => true

/-- The operations in which the local clock can move: those R25 names as its writers, and those that invoke one. -/
def movesClock : Instr → Bool
  | .clktick | .clkcorr _ | .clkload _ | .reset | .sample _ | .sampleskip => true
  | .framedone | .framebit _ | .lockedStep _ _ => true
  | .nop | .cfgwr _ | .txload _ => false
  | .reserved7 | .reserved8 | .reserved9 | .reservedA | .reservedB => false
  | .reservedC | .reservedD | .reservedE | .reservedF => false
  | .txbit | .winpush _ | .classifySlope _ | .classifyZc _ | .accept _ _ => false
  | .unsyncStep _ _ | .bitout _ _ _ | .syncdet _ | .lock | .syncerr _ => false
  | .pad _ | .bchenc _ | .interleave _ | .encode _ | .frame _ => false
  | .deinterleave _ | .bchdec _ | .decode _ | .idlechk _ => false

/-- The reserved request codes (44_control.md R203). -/
def reservedOps : List Instr :=
  [.reserved7, .reserved8, .reserved9, .reservedA, .reservedB, .reservedC, .reservedD, .reservedE, .reservedF]

/-- The two states agree on everything the receive path reads or writes: all but the transmit registers and `FLAGS`. -/
def SameReceive (s t : State) : Prop :=
  t.K = s.K ∧ t.dem = s.dem ∧ t.cfg = s.cfg ∧ t.stat = s.stat ∧ t.rx = s.rx ∧ t.clk = s.clk

/-- A step that answers a next state: the block never faults and refuses nothing (40_demod.md R110). -/
def SafeStep (s : State) : Prop := ∃ t, step s = .next t

end Sys2Proof.Machine
end

