-- ==== Sys2Proof/Certificates/Slice0/Obligations.lean ====
section
/-! DEFINITION. The statements about the model, in the order of OBLIGATIONS.json. A statement that speaks of the value an
internal function returns reads it from the model's field `ret`, and one that speaks of a request's events reads them from
`out` (log entries 5 and 4): where they stand is the model's choice, what they are is the spec's. -/

open Sys2Proof Sys2Proof.Machine Sys2Proof.Config

/-! ### Encoding and the step -/

/-- 30_encoding.md R61, R70, R75: decoding an encoded request gives it back, and every request word decodes to an operation
with an encoding of the same request code. -/
def Obligations.DecodeInvertsEncode : Prop :=
  (∀ (i : Instr) (r : Req), encode i = some r → decode r = i)
    ∧ ∀ r : Req, ∃ q : Req, encode (decode r) = some q ∧ decode q = decode r ∧ opOf q = opOf r

/-- 30_encoding.md R61, R70 and 93_implementation_defined.md U10: each request code with any argument; the argument bits a
request does not read have no effect. -/
def Obligations.DecodeReadsCodeAndArgument : Prop :=
  ∀ arg : BitVec 64,
    decode (0x0#4 ++ arg) = .nop ∧ decode (0x1#4 ++ arg) = .reset
    ∧ decode (0x2#4 ++ arg) = .cfgwr (arg.extractLsb' 0 3) ∧ decode (0x3#4 ++ arg) = .sample arg
    ∧ decode (0x4#4 ++ arg) = .sampleskip ∧ decode (0x5#4 ++ arg) = .txload arg
    ∧ decode (0x6#4 ++ arg) = .clkload arg
    ∧ decode (0x7#4 ++ arg) = .reserved7 ∧ decode (0x8#4 ++ arg) = .reserved8
    ∧ decode (0x9#4 ++ arg) = .reserved9 ∧ decode (0xA#4 ++ arg) = .reservedA
    ∧ decode (0xB#4 ++ arg) = .reservedB ∧ decode (0xC#4 ++ arg) = .reservedC
    ∧ decode (0xD#4 ++ arg) = .reservedD ∧ decode (0xE#4 ++ arg) = .reservedE
    ∧ decode (0xF#4 ++ arg) = .reservedF

/-- 95_test_vectors.md V-CTL-1, V-CTL-2, V-CTL-3 and the examples of 30_encoding.md R74: each request word written out there
decodes to the request it is written for; the two of R74 are among those of V-CTL-1. -/
def Obligations.WrittenWordsDecode : Prop :=
  decode 0x0_0000000000000000#68 = .nop
    ∧ decode 0x1_0000000000000000#68 = .reset
    ∧ decode 0x2_0000000000000007#68 = .cfgwr 0b111#3
    ∧ decode 0x3_000000000000E2B4#68 = .sample 0xE2B4#64 ∧ sampleOperand refcfg 0xE2B4#64 = -7500
    ∧ decode 0x3_0000000000002134#68 = .sample 0x2134#64 ∧ sampleOperand refcfg 0x2134#64 = 8500
    ∧ decode 0x3_000000000000FFFF#68 = .sample 0xFFFF#64 ∧ sampleOperand refcfg 0xFFFF#64 = -1
    ∧ decode 0x4_0000000000000000#68 = .sampleskip
    ∧ decode 0x5_0123456789ABCDEF#68 = .txload 0x0123456789ABCDEF#64
    ∧ decode 0x6_0000000000003DD8#68 = .clkload 15832#64 ∧ clockOperand refcfg 15832#64 = 15832
    ∧ decode 0x3_FFFFFFFFFFFF2134#68 = .sample 0xFFFFFFFFFFFF2134#64
    ∧ sampleOperand refcfg 0xFFFFFFFFFFFF2134#64 = 8500
    ∧ decode 0x2_FFFFFFFFFFFFFFF8#68 = .cfgwr 0b000#3
    ∧ decode 0x1_123456789ABCDEF0#68 = .reset
    ∧ decode 0x7_0000000000000000#68 = .reserved7
    ∧ decode 0xF_FFFFFFFFFFFFFFFF#68 = .reservedF

/-- 30_encoding.md R61 with 00_scope.md R7 (`sext_N`): a sample is the low `SW` bits of the argument in two's complement, and
so lies in `-2^(SW-1) .. 2^(SW-1)-1` (40_demod.md R91). -/
def Obligations.SampleOperandIsTwosComplement : Prop :=
  ∀ (K : Params) (arg : Arg), 1 ≤ K.sw →
    (K.sw ≤ 64 → sampleOperand K arg = (arg.setWidth K.sw).toInt)
    ∧ -(2 ^ (K.sw - 1) : Int) ≤ sampleOperand K arg ∧ sampleOperand K arg < (2 ^ (K.sw - 1) : Int)

/-- 44_control.md R204 and 20_memory.md R46: a step takes the next request pending, decodes it and performs it; what it decodes
to is well formed. That requests stand in a queue, and that a step with none pending changes nothing, is the model's choice
(log entry 3). -/
def Obligations.StepPerformsNextRequest : Prop :=
  (∀ (s : State) (r : Req) (rest : List Req), s.reqs = r :: rest → step s = exec (decode r) { s with reqs := rest })
    ∧ (∀ s : State, s.reqs = [] → step s = .next s)
    ∧ ∀ (K : Params) (r : Req), (decode r).wf K = true

/-- 40_demod.md R110 and 93_implementation_defined.md section 1 ("nothing in this block faults or hangs"): every operation on
every state answers a next state, and so does every step. -/
def Obligations.EveryOperationCompletes : Prop :=
  (∀ (i : Instr) (s : State), ∃ t, exec i s = .next t) ∧ ∀ s : State, SafeStep s

/-- The invariant holds after reset. The configuration of `State.reset` is REFCFG, the model's choice (log entry 1). -/
def Obligations.ResetMeetsInvariant : Prop := Inv State.reset

/-- Every step keeps the invariant, from every state that meets it, under every admissible configuration. -/
def Obligations.StepKeepsInvariant : Prop :=
  ∀ s t : State, Inv s → step s = .next t → Inv t

/-! ### Control -/

/-- 44_control.md R202. -/
def Obligations.NopChangesNothing : Prop :=
  ∀ s : State, ∃ t, exec .nop s = .next t ∧ SameSpec s t ∧ t.out = []

/-- 10_state.md R30: what `RESET` writes, element by element; the configuration is not affected. -/
def Obligations.ResetWritesEveryResetValue : Prop :=
  ∀ s : State, ∃ t, exec .reset s = .next t ∧ t.K = s.K ∧ t.out = []
    ∧ t.dem.t = 0 ∧ t.dem.mode = .unsync ∧ t.dem.bidx = 0
    ∧ t.dem.win.length = s.K.w ∧ (∀ x ∈ t.dem.win, x = 0) ∧ t.dem.wfill = 0
    ∧ t.dem.thr = s.K.thrInit ∧ t.dem.wait = 3 * (s.K.bitT : Int) / 2
    ∧ t.dem.curBit = false ∧ t.dem.curLvl = 0 ∧ t.dem.sr = 0#33
    ∧ t.dem.hl.length = 33 ∧ (∀ l ∈ t.dem.hl, l = 0) ∧ t.dem.hw.length = 33 ∧ (∀ a ∈ t.dem.hw, a = 0)
    ∧ t.dem.nb = 0 ∧ t.dem.origin = 0 ∧ t.dem.syncLevel = 0 ∧ t.dem.jit = 0
    ∧ t.dem.fb = 0#150 ∧ t.dem.rxMarker = false ∧ t.dem.skipseen = false
    ∧ t.cfg = 0#3 ∧ t.flags = 0#2 ∧ t.stat = .none
    ∧ t.rx.payload = 0#64 ∧ t.rx.opcode = 0#6 ∧ t.rx.pad = 0#6
    ∧ t.rx.eflag.length = 10 ∧ (∀ e ∈ t.rx.eflag, e = 0) ∧ t.rx.errcnt = 0
    ∧ t.rx.level = 0 ∧ t.rx.syncerr = 0 ∧ t.rx.tvalid = false ∧ t.rx.jitter = 0
    ∧ t.clk = 0 ∧ t.tx.txn = 0#184 ∧ t.tx.txf = 0#184
    ∧ t.tx.pend = false ∧ t.tx.act = false ∧ t.tx.idx = 0 ∧ t.tx.bit = false

/-- 44_control.md R201, 10_state.md R21: `CFGWR` writes the three fields and nothing else. -/
def Obligations.CfgwrWritesOnlyCfg : Prop :=
  ∀ (s : State) (c : BitVec 3), ∃ t, exec (.cfgwr c) s = .next t ∧ SameSpec { s with cfg := c } t ∧ t.out = []
    ∧ dtypeZc t.cfg = c.getLsbD 0 ∧ inv t.cfg = c.getLsbD 1 ∧ corrEn t.cfg = c.getLsbD 2

/-- 44_control.md R203, 30_encoding.md R71: every reserved code sets `FLAGS[1]` and does nothing else. -/
def Obligations.ReservedCodesOnlySetReqErr : Prop :=
  (∀ i ∈ reservedOps, ∀ s : State, ∃ t, exec i s = .next t
      ∧ SameSpec { s with flags := t.flags } t ∧ t.out = []
      ∧ t.flags.getLsbD 1 = true ∧ t.flags.getLsbD 0 = s.flags.getLsbD 0)
    ∧ ∀ r : Req, 7 ≤ (r.extractLsb' 64 4).toNat → decode r ∈ reservedOps

/-- 10_state.md R22: each flag is set by its cause, cleared only by `RESET`, and otherwise as it was. -/
def Obligations.FlagsAreStickyAndExact : Prop :=
  ∀ (i : Instr) (s t : State), exec i s = .next t →
    (t.flags.getLsbD 0 = true ↔ i ≠ .reset ∧ (s.flags.getLsbD 0 = true ∨ (∃ p, i = .txload p) ∧ s.tx.pend = true))
    ∧ (t.flags.getLsbD 1 = true ↔ i ≠ .reset ∧ (s.flags.getLsbD 1 = true ∨ i ∈ reservedOps))

/-! ### The local clock -/

/-- 43_clock.md R185: `CLKLOAD` writes the clock, reduced modulo the super-frame, and nothing else; no `TXBIT`. -/
def Obligations.ClkloadSetsOnlyTheClock : Prop :=
  ∀ (s : State) (arg : Arg), ∃ t, exec (.clkload arg) s = .next t
    ∧ SameSpec { s with clk := arg.toNat % (32 * s.K.slotT) } t ∧ t.out = []

/-- 43_clock.md R180: the clock advances modulo the super-frame, and `TXBIT` is invoked exactly when a bit boundary is crossed;
under an admissible configuration that is when the rest of the bit period is at most one sample period. -/
def Obligations.ClktickAdvancesClock : Prop :=
  ∀ s : State, ∃ t, exec .clktick s = .next t
    ∧ t.clk = (s.clk + s.K.tps) % (32 * s.K.slotT)
    ∧ (t.clk / s.K.bitT ≠ s.clk / s.K.bitT → exec .txbit { s with clk := t.clk } = .next t)
    ∧ (t.clk / s.K.bitT = s.clk / s.K.bitT → t = { s with clk := t.clk })
    ∧ SameSpec { s with clk := t.clk, tx := t.tx } t
    ∧ (Admissible s.K → s.clk < superT s.K →
        (t.clk / s.K.bitT ≠ s.clk / s.K.bitT ↔ s.K.bitT ≤ s.clk % s.K.bitT + s.K.tps))

/-- 43_clock.md R183: the sync error is the distance, in `-RXPER_T/2 .. RXPER_T/2 - 1`, of the clock's reading at the time
origin from one of the expected positions `ORIGIN_T + k * RXPER_T`. -/
def Obligations.SyncerrIsDistanceToExpectedOrigin : Prop :=
  ∀ (s : State) (o : Int), Admissible s.K → ∃ e : Int, exec (.syncerr o) s = .next { s with ret := .ticks e }
    ∧ -((s.K.rxperT : Int) / 2) ≤ e ∧ e < (s.K.rxperT : Int) / 2
    ∧ (s.K.rxperT : Int) ∣ ((s.clk : Int) - ((s.dem.t : Int) - o)) - (s.K.originT : Int) - e

/-- 43_clock.md R184: more than half a bit is removed whole, anything else by half, truncated toward zero; only the clock
moves, and nothing is emitted. -/
def Obligations.ClkcorrSnapsOrHalves : Prop :=
  ∀ (s : State) (e : Int), 0 < s.K.slotT → ∃ t, exec (.clkcorr e) s = .next t
    ∧ (t.clk : Int) = ((s.clk : Int) - (if (s.K.bitT : Int) < 2 * |e| then e else e.tdiv 2)) % (32 * (s.K.slotT : Int))
    ∧ SameSpec { s with clk := t.clk } t ∧ t.out = s.out

/-- 43_clock.md R184: measured again after the correction, a snapped error is 0 and a halved one is `e - e tdiv 2`. -/
def Obligations.CorrectedClockMeasuresResidual : Prop :=
  ∀ (s : State) (o : Int), Admissible s.K → ∃ (e : Int) (t : State),
    exec (.syncerr o) s = .next { s with ret := .ticks e }
    ∧ exec (.clkcorr e) s = .next t
    ∧ exec (.syncerr o) t = .next { t with ret := .ticks (if (s.K.bitT : Int) < 2 * |e| then 0 else e - e.tdiv 2) }

/-- 43_clock.md R187: an error beyond half a bit is gone after one correction, no correction makes an error larger, and
repeated corrections end at 0, 1 or -1 tick. -/
def Obligations.RepeatedCorrectionConverges : Prop :=
  ∀ (K : Params) (e : Int),
    ((K.bitT : Int) < 2 * |e| → e - correction K e = 0)
    ∧ |e - correction K e| ≤ |e|
    ∧ ∃ n : Nat, ∀ m : Nat, n ≤ m → |(fun x : Int => x - correction K x)^[m] e| ≤ 1

/-- 43_clock.md R186: the phase read from one instance and loaded into another makes the clocks agree, and they go on agreeing
over any equal number of sample periods while neither corrects its clock. A phase of 2^64 or more does not fit the argument of
`CLKLOAD`, and what is then sent is the model's choice (log entry 16), so it is left out. -/
def Obligations.CopiedClockStaysEqual : Prop :=
  ∀ a b : State, a.clk < 2 ^ 64 → a.clk < superT a.K → b.K.slotT = a.K.slotT → b.K.tps = a.K.tps →
    corrEn a.cfg = false → corrEn b.cfg = false →
    ∃ b', exec (decode (copyClockRequest (readable a))) b = .next b' ∧ b'.clk = a.clk
      ∧ ∀ ra rb : List Req, ra.length = rb.length → (∀ r ∈ ra ++ rb, opOf r = 0x3#4 ∨ opOf r = 0x4#4) →
          ∃ u v, perform ra a = some u ∧ perform rb b' = some v ∧ u.1.clk = v.1.clk

/-- 10_state.md R10, R11, R25: no operation changes the configuration, nor (log entry 3) the requests that follow; `SAMPLE`
adds `TPS` to the demodulator time and only `RESET` otherwise writes it; the local clock moves only in the operations R25 names
and in those that invoke one. -/
def Obligations.ConfigurationAndTimeHaveTheirWriters : Prop :=
  ∀ (i : Instr) (s t : State), exec i s = .next t →
    t.K = s.K ∧ t.reqs = s.reqs
    ∧ ((∃ arg, i = .sample arg) → t.dem.t = s.dem.t + s.K.tps)
    ∧ (i = .reset → t.dem.t = 0)
    ∧ ((∀ arg, i ≠ .sample arg) → i ≠ .reset → t.dem.t = s.dem.t)
    ∧ (movesClock i = false → t.clk = s.clk)

/-! ### Framer -/

/-- 41_framer.md R132, R137: the detector accepts exactly the windows that differ from `SYNC11` three times over in at most 2
places; the inverted pattern differs in all 33 and is not detected. -/
def Obligations.SyncDetectionTolerance : Prop :=
  ∀ K : Params,
    (∀ w : SyncWindow, syncDet K w = true ↔
      ((Finset.range 33).filter fun i => bitAt w i ≠ bitAt K.sync11 (i % 11)).card ≤ 2)
    ∧ ham (~~~(sync33 K)) (sync33 K) = 33 ∧ syncDet K (~~~(sync33 K)) = false

/-- 30_encoding.md R67: the content of each index of a frame. -/
def Obligations.FrameLayout : Prop :=
  ∀ (K : Params) (x : Coded),
    (∀ i, i < 33 → bitAt (frame K x) i = bitAt K.sync11 (i % 11))
    ∧ bitAt (frame K x) 33 = K.marker
    ∧ ∀ n, n < 150 → bitAt (frame K x) (34 + n) = bitAt x n

/-- 41_framer.md R131, R133: SYNCDET and FRAME return the values of the two functions above and write no state. That the value
stands in `ret` is the model's choice (log entry 5). -/
def Obligations.SyncdetAndFrameReturnTheirValues : Prop :=
  ∀ (s : State) (w : SyncWindow) (x : Coded),
    exec (.syncdet w) s = .next { s with ret := .bool (syncDet s.K w) }
    ∧ exec (.frame x) s = .next { s with ret := .frame (frame s.K x) }

/-- 41_framer.md R134: with a telegram pending a new one is dropped and `FLAGS[0]` set; otherwise its frame becomes the pending
one. Nothing is emitted and nothing else changes. -/
def Obligations.TxloadQueuesOrDrops : Prop :=
  ∀ (s : State) (p : Payload), ∃ t, exec (.txload p) s = .next t ∧ t.out = []
    ∧ (s.tx.pend = true → SameSpec { s with flags := t.flags } t
        ∧ t.flags.getLsbD 0 = true ∧ t.flags.getLsbD 1 = s.flags.getLsbD 1)
    ∧ (s.tx.pend = false →
        SameSpec { s with tx := { s.tx with txn := frame s.K (encodeTelegram s.K p), pend := true } } t)

/-- 41_framer.md R135: at a bit boundary a pending frame starts if none is being sent and the bit index is `TXOFF_BITS`; the
frame being sent gives its next bit and ends with bit 183; otherwise nothing happens. -/
def Obligations.TxbitStartsSendsOrIdles : Prop :=
  ∀ s : State,
    (s.tx.pend = true → s.tx.act = false → s.clk % s.K.rxperT / s.K.bitT = s.K.txoffBits →
      exec .txbit s = .next { s with
        tx := { txn := s.tx.txn, pend := false, txf := s.tx.txn, act := true, idx := 1, bit := bitAt s.tx.txn 0 }
        out := s.out ++ [.txbit (bitAt s.tx.txn 0)] })
    ∧ (s.tx.act = true → s.tx.idx < 184 →
      exec .txbit s = .next { s with
        tx := { s.tx with bit := bitAt s.tx.txf s.tx.idx, idx := s.tx.idx + 1, act := decide (s.tx.idx ≠ 183) }
        out := s.out ++ [.txbit (bitAt s.tx.txf s.tx.idx)] })
    ∧ (s.tx.act = false → ¬(s.tx.pend = true ∧ s.clk % s.K.rxperT / s.K.bitT = s.K.txoffBits) →
      exec .txbit s = .next s)

/-- 41_framer.md R135: from the boundary at which it starts, a pending frame goes out bit by bit, `F[0]` first, and ends 184
boundaries later, whatever the clock reads at the later boundaries. -/
def Obligations.PendingFrameGoesOutWhole : Prop :=
  ∀ (s : State) (c : Nat) (cs : List Nat), s.tx.pend = true → s.tx.act = false →
    c % s.K.rxperT / s.K.bitT = s.K.txoffBits → cs.length = 183 →
    ∃ t, boundaries (c :: cs) s = some t
      ∧ t.out = s.out ++ (List.range 184).map (fun i => .txbit (bitAt s.tx.txn i))
      ∧ t.tx.txf = s.tx.txn ∧ t.tx.pend = false ∧ t.tx.act = false ∧ t.tx.idx = 184

/-! ### Codec -/

/-- 42_codec.md R151, 30_encoding.md R63: `PAD` puts the payload first and `PAD6` after it; its inverse takes them apart. -/
def Obligations.PadAndItsInverse : Prop :=
  ∀ (s : State) (p : Payload) (j : Info),
    (∃ i : Info, exec (.pad (.pad p)) s = .next { s with ret := .info i }
      ∧ (∀ n, n < 64 → bitAt i n = bitAt p n) ∧ (∀ m, m < 6 → bitAt i (64 + m) = bitAt s.K.pad6 m)
      ∧ exec (.pad (.unpad i)) s = .next { s with ret := .unpadded p s.K.pad6 })
    ∧ ∃ (q : Payload) (r : BitVec 6), exec (.pad (.unpad j)) s = .next { s with ret := .unpadded q r } ∧ q ++ r = j

/-- 42_codec.md R153, R166, 30_encoding.md R64: the code word is the data bits, then for each redundancy bit the exclusive or
over the data bits of their contributions; encoding is linear. -/
def Obligations.BchencIsSystematicAndLinear : Prop :=
  ∀ (s : State) (d d' : Group), ∃ w w' : CodeWord,
    exec (.bchenc d) s = .next { s with ret := .word w }
    ∧ exec (.bchenc d') s = .next { s with ret := .word w' }
    ∧ (∀ j, j < 7 → bitAt w j = bitAt d j)
    ∧ (∀ m, m < 8 → bitAt w (7 + m) =
        ((bitAt d 0 && bitAt s.K.gen[0] m) ^^ (bitAt d 1 && bitAt s.K.gen[1] m) ^^ (bitAt d 2 && bitAt s.K.gen[2] m)
          ^^ (bitAt d 3 && bitAt s.K.gen[3] m) ^^ (bitAt d 4 && bitAt s.K.gen[4] m)
          ^^ (bitAt d 5 && bitAt s.K.gen[5] m) ^^ (bitAt d 6 && bitAt s.K.gen[6] m)))
    ∧ exec (.bchenc (d ^^^ d')) s = .next { s with ret := .word (w ^^^ w') }
    ∧ exec (.bchenc 0#7) s = .next { s with ret := .word 0#15 }

/-- 42_codec.md R154: the code has exactly 128 members; a word is one exactly when it is the code word of its first 7 bits. -/
def Obligations.CodeHasExactly128Words : Prop :=
  ∀ K : Params,
    (codeTable K).length = 128 ∧ (codeTable K).Nodup
    ∧ (∀ w : CodeWord, w ∈ codeTable K ↔ ∃ d : Group, bchEnc K d = w)
    ∧ (∀ w : CodeWord, w ∈ codeTable K ↔ isCode K w = true)
    ∧ (∀ w : CodeWord, isCode K w = true ↔ bchEnc K (dataBits w) = w)
    ∧ ∀ d : Group, dataBits (bchEnc K d) = d

/-- 42_codec.md R155, R157: the index map of the interleaver and of its inverse. -/
def Obligations.InterleaverIndexMap : Prop :=
  ∀ (s : State) (cw : Words) (y : Coded), ∃ (x : Coded) (v : Words),
    exec (.interleave cw) s = .next { s with ret := .coded x }
    ∧ exec (.deinterleave y) s = .next { s with ret := .words v }
    ∧ ∀ (c g : Nat) (hg : g < 10), c < 15 → bitAt x (10 * c + g) = bitAt cw[g] c ∧ bitAt v[g] c = bitAt y (10 * c + g)

/-- 42_codec.md R157: each of the two undoes the other, and the index map is a bijection. -/
def Obligations.InterleaverRoundTrip : Prop :=
  (∀ cw : Words, deinterleave (interleave cw) = cw) ∧ (∀ y : Coded, interleave (deinterleave y) = y)
    ∧ ∀ (y : Coded) (g c : Nat) (hg : g < 10), c < 15 → bitAt (deinterleave y)[g] c = bitAt y (10 * c + g)

/-- 42_codec.md R156, 30_encoding.md R65: bit `c` of the code word of group `g` of `P ++ PAD6` stands at `X[10 * c + g]`. -/
def Obligations.EncodePlacesCodeWords : Prop :=
  ∀ (s : State) (p : Payload), ∃ x : Coded, exec (.encode p) s = .next { s with ret := .coded x }
    ∧ ∀ g, g < 10 → ∃ d : Group, (∀ j, j < 7 → bitAt d j = bitAt (p ++ s.K.pad6) (7 * g + j))
        ∧ ∀ c, c < 15 → bitAt x (10 * c + g) = bitAt (bchEnc s.K d) c

/-- 42_codec.md R158, for every `GEN`: the decoder answers a data word whose code word is nearest, with the distance as its
flag, and fails exactly when no code word is within distance 2. -/
def Obligations.BchdecFindsNearestCodeWord : Prop :=
  ∀ (s : State) (w : CodeWord), ∃ r : Option (Group × Nat), exec (.bchdec w) s = .next { s with ret := .wordResult r }
    ∧ (r = none ↔ ∀ d : Group, 2 < ham w (bchEnc s.K d))
    ∧ ∀ (d : Group) (e : Nat), r = some (d, e) →
        e ≤ 2 ∧ ham w (bchEnc s.K d) = e ∧ ∀ d' : Group, e ≤ ham w (bchEnc s.K d')

/-- 42_codec.md R159: with minimum distance at least 5, at most one code word lies within distance 2, and the decoder answers
its data and its distance, or fails when there is none. -/
def Obligations.NearestCodeWordIsUnique : Prop :=
  ∀ K : Params, minDistanceFive K = true → ∀ w : CodeWord,
    (∀ d d' : Group, ham w (bchEnc K d) ≤ 2 → ham w (bchEnc K d') ≤ 2 → d = d')
    ∧ (∀ d : Group, ham w (bchEnc K d) ≤ 2 → bchDec K w = some (d, ham w (bchEnc K d)))
    ∧ ((∀ d : Group, 2 < ham w (bchEnc K d)) → bchDec K w = none)

/-- 42_codec.md R152: the two forms of the constraint on `GEN` are one. -/
def Obligations.CodeDistanceIsSmallestWeight : Prop :=
  ∀ K : Params, minDistanceFive K = true ↔ ∀ d d' : Group, d ≠ d' → 5 ≤ ham (bchEnc K d) (bchEnc K d')

/-- 42_codec.md R160: a telegram is rejected if any of its ten words fails; otherwise group `g` and flag `g` are those of
word `g`. -/
def Obligations.DecodeNeedsEveryWord : Prop :=
  ∀ (s : State) (y : Coded), ∃ r : Option Telegram, exec (.decode y) s = .next { s with ret := .telegram r }
    ∧ (r = none ↔ ∃ (g : Nat) (hg : g < 10), bchDec s.K (deinterleave y)[g] = none)
    ∧ ∀ tg : Telegram, r = some tg → tg.eflag.length = 10 ∧
        ∀ (g : Nat) (hg : g < 10), ∃ (d : Group) (e : Nat), bchDec s.K (deinterleave y)[g] = some (d, e)
          ∧ tg.eflag[g]? = some e ∧ ∀ j, j < 7 → bitAt tg.info (7 * g + j) = bitAt d j

/-- 42_codec.md R161: the discard test is true of the all-zero and the all-one payload and of no other. -/
def Obligations.IdlechkIsAllEqual : Prop :=
  ∀ (s : State) (p : Payload), ∃ b : Bool, exec (.idlechk p) s = .next { s with ret := .bool b }
    ∧ (b = true ↔ p = 0#64 ∨ p = BitVec.allOnes 64)

/-- 42_codec.md R163, for every `GEN`, admissible or not: decoding an encoded payload gives it back with no error reported and
the pad as sent. -/
def Obligations.TelegramRoundTrip : Prop :=
  ∀ (K : Params) (p : Payload), ∃ tg : Telegram, decodeTelegram K (encodeTelegram K p) = some tg
    ∧ tg.info = pad K p ∧ tg.eflag = List.replicate 10 0 ∧ tg.eflag.sum = 0
    ∧ unpadPayload tg.info = p ∧ unpadPad tg.info = K.pad6

/-- 42_codec.md R164: up to two wrong bits in each word are corrected, and each flag counts those of its word. -/
def Obligations.TwoErrorsInEachWordAreCorrected : Prop :=
  ∀ (K : Params) (p : Payload) (y : Coded), minDistanceFive K = true →
    (∀ g, g < 10 → ((List.range 15).countP fun c =>
      bitAt y (10 * c + g) != bitAt (encodeTelegram K p) (10 * c + g)) ≤ 2) →
    decodeTelegram K y = some { info := pad K p, eflag := (List.range 10).map (fun g =>
      (List.range 15).countP fun c => bitAt y (10 * c + g) != bitAt (encodeTelegram K p) (10 * c + g)) }

/-- 42_codec.md R155 with R164: any burst of up to 20 wrong bits in a row is corrected. -/
def Obligations.BurstOfTwentyIsCorrected : Prop :=
  ∀ (K : Params) (p : Payload) (y : Coded) (a : Nat), minDistanceFive K = true →
    (∀ n, n < 150 → n < a ∨ a + 20 ≤ n → bitAt y n = bitAt (encodeTelegram K p) n) →
    ∃ tg, decodeTelegram K y = some tg ∧ tg.info = pad K p ∧ ∀ e ∈ tg.eflag, e ≤ 2

/-- 42_codec.md R165, what does hold: three or more flips never return the data that was sent; an answer after exactly three
carries flag 2, after four flag 1 or 2. -/
def Obligations.ThreeErrorsNeverReturnSentData : Prop :=
  ∀ (K : Params) (d : Group) (w : CodeWord) (d' : Group) (e : Nat), minDistanceFive K = true →
    3 ≤ ham w (bchEnc K d) → bchDec K w = some (d', e) →
    d' ≠ d ∧ (ham w (bchEnc K d) = 3 → e = 2) ∧ (ham w (bchEnc K d) = 4 → e = 1 ∨ e = 2)

/-! ### Demodulator -/

/-- 40_demod.md R94: the oldest sample is dropped, every other moves one place down, the new one comes last. -/
def Obligations.WinpushShiftsTheWindow : Prop :=
  ∀ (s : State) (x : Int), s.dem.win.length = s.K.w → 1 ≤ s.K.w → ∃ t, exec (.winpush x) s = .next t
    ∧ t.dem.win.length = s.K.w ∧ (∀ i, i + 1 < s.K.w → t.dem.win[i]? = s.dem.win[i + 1]?)
    ∧ t.dem.win[s.K.w - 1]? = some x ∧ t.dem.wfill = min s.K.w (s.dem.wfill + 1)
    ∧ SameSpec { s with dem := { s.dem with win := t.dem.win, wfill := t.dem.wfill } } t ∧ t.out = s.out

/-- 40_demod.md R93, R95: the slope classifier finds the first of the largest steps; a constant offset changes nothing. -/
def Obligations.SlopeClassifierFindsLargestStep : Prop :=
  ∀ (s : State) (win : List Int), 2 ≤ win.length →
    ∃ c : Change, exec (.classifySlope win) s = .next { s with ret := .change c }
    ∧ (c.found = true ↔ ∃ i, 1 ≤ i ∧ i < win.length ∧ win.getD i 0 ≠ win.getD (i - 1) 0)
    ∧ (c.found = true → 1 ≤ c.peak ∧ c.peak < win.length
        ∧ (∀ i, 1 ≤ i → i < win.length →
            |win.getD i 0 - win.getD (i - 1) 0| ≤ |win.getD c.peak 0 - win.getD (c.peak - 1) 0|)
        ∧ (∀ i, 1 ≤ i → i < c.peak →
            |win.getD i 0 - win.getD (i - 1) 0| < |win.getD c.peak 0 - win.getD (c.peak - 1) 0|)
        ∧ (c.pol = true ↔ win.getD (c.peak - 1) 0 < win.getD c.peak 0))
    ∧ (c.found = false → c.peak = 0 ∧ c.pol = false)
    ∧ (∃ x ∈ win, ∃ y ∈ win, (c.level : Int) = x - y ∧ ∀ z ∈ win, y ≤ z ∧ z ≤ x)
    ∧ ∀ k : Int, exec (.classifySlope (win.map (· + k))) s = .next { s with ret := .change c }

/-- 40_demod.md R93, R96: the zero-crossing classifier finds the first of the largest steps that cross zero, where zero counts
as non-negative. -/
def Obligations.ZcClassifierFindsLargestCrossing : Prop :=
  ∀ (s : State) (win : List Int), 2 ≤ win.length →
    ∃ c : Change, exec (.classifyZc win) s = .next { s with ret := .change c }
    ∧ (c.found = true ↔ ∃ i, 1 ≤ i ∧ i < win.length ∧ ¬(win.getD (i - 1) 0 < 0 ↔ win.getD i 0 < 0))
    ∧ (c.found = true → 1 ≤ c.peak ∧ c.peak < win.length ∧ ¬(win.getD (c.peak - 1) 0 < 0 ↔ win.getD c.peak 0 < 0)
        ∧ (∀ i, 1 ≤ i → i < win.length → ¬(win.getD (i - 1) 0 < 0 ↔ win.getD i 0 < 0) →
            |win.getD i 0 - win.getD (i - 1) 0| ≤ |win.getD c.peak 0 - win.getD (c.peak - 1) 0|)
        ∧ (∀ i, 1 ≤ i → i < c.peak → ¬(win.getD (i - 1) 0 < 0 ↔ win.getD i 0 < 0) →
            |win.getD i 0 - win.getD (i - 1) 0| < |win.getD c.peak 0 - win.getD (c.peak - 1) 0|)
        ∧ (c.pol = true ↔ 0 ≤ win.getD c.peak 0))
    ∧ (c.found = false → c.peak = 0 ∧ c.pol = false)
    ∧ ∃ x ∈ win, ∃ y ∈ win, (c.level : Int) = x - y ∧ ∀ z ∈ win, y ≤ z ∧ z ≤ x

/-- 40_demod.md R97: found, at the middle index, with a level strictly above the threshold. -/
def Obligations.AcceptIsMiddleAndAboveThreshold : Prop :=
  ∀ (s : State) (c : Change) (thr : Nat), ∃ b : Bool, exec (.accept c thr) s = .next { s with ret := .bool b }
    ∧ (b = true ↔ c.found = true ∧ c.peak = s.K.w / 2 ∧ thr < c.level)

/-- 40_demod.md R98-R102: an accepted transition sets the bit, the level, the threshold and a 1.5-bit wait and gives a bit with
arrival time `t`; else an expired wait repeats the last bit, is prolonged by one bit and gives arrival time `t - BIT_T/2`; else
nothing. -/
def Obligations.UnsyncStepTransitionBeforeExpiry : Prop :=
  ∀ (s : State) (c : Change),
    exec (.unsyncStep true c) s = exec (.bitout (c.pol ^^ s.cfg.getLsbD 1) c.level (s.dem.t : Int))
      { s with dem := { s.dem with
          curBit := c.pol ^^ s.cfg.getLsbD 1
          curLvl := c.level
          thr := thrNext s.K s.dem.thr (.accepted c.level)
          wait := 3 * (s.K.bitT : Int) / 2 } }
    ∧ (s.dem.wait ≤ 0 → exec (.unsyncStep false c) s =
        exec (.bitout s.dem.curBit s.dem.curLvl ((s.dem.t : Int) - (s.K.bitT : Int) / 2))
          { s with dem := { s.dem with
              thr := thrNext s.K s.dem.thr .repeated
              wait := s.dem.wait + (s.K.bitT : Int) } })
    ∧ (0 < s.dem.wait → exec (.unsyncStep false c) s = .next s)
    ∧ ∀ acc : Bool, ∃ t, exec (.unsyncStep acc c) s = .next t

/-- 40_demod.md R103, 20_memory.md R42: the three histories move one place together; with 33 bits and the pattern in them the
block locks, else nothing more happens. -/
def Obligations.BitoutShiftsHistoryAndLocks : Prop :=
  ∀ (s : State) (b : Bool) (l : Nat) (a : Int), ∃ (sr : SyncWindow) (t : State),
    (∀ i, i < 32 → bitAt sr i = bitAt s.dem.sr (i + 1)) ∧ bitAt sr 32 = b
    ∧ exec (.bitout b l a) s = .next t
    ∧ (33 ≤ s.dem.nb + 1 → ham sr (sync33 s.K) ≤ 2 →
        exec .lock { s with
          dem := { s.dem with sr := sr, hl := s.dem.hl.drop 1 ++ [l], hw := s.dem.hw.drop 1 ++ [a], nb := 33 }
          out := s.out ++ [.rawbit b l] } = .next t)
    ∧ (¬(33 ≤ s.dem.nb + 1 ∧ ham sr (sync33 s.K) ≤ 2) →
        t = { s with
          dem := { s.dem with
            sr := sr, hl := s.dem.hl.drop 1 ++ [l], hw := s.dem.hw.drop 1 ++ [a], nb := min 33 (s.dem.nb + 1) }
          out := s.out ++ [.rawbit b l] })

/-- 40_demod.md R105: what `LOCK` measures and sets; both means are floor divisions, the jitter is the largest distance of a
sync bit from its nominal arrival time. -/
def Obligations.LockMeasuresTheSyncBits : Prop :=
  ∀ s : State, s.dem.hw.length = 33 → s.dem.hl.length = 33 → ∃ t, exec .lock s = .next t
    ∧ 33 * t.dem.origin ≤ s.dem.hw.sum ∧ s.dem.hw.sum < 33 * t.dem.origin + 33
    ∧ 33 * t.dem.syncLevel ≤ s.dem.hl.sum ∧ s.dem.hl.sum < 33 * t.dem.syncLevel + 33
    ∧ (∀ k, k < 33 → |s.dem.hw.getD k 0 - (t.dem.origin + ((k : Int) - 16) * (s.K.bitT : Int))| ≤ (t.dem.jit : Int))
    ∧ (∃ k, k < 33 ∧ |s.dem.hw.getD k 0 - (t.dem.origin + ((k : Int) - 16) * (s.K.bitT : Int))| = (t.dem.jit : Int))
    ∧ t.dem.thr = t.dem.syncLevel * s.K.lockNum / s.K.lockDen
    ∧ t.dem.bidx = 33 ∧ t.dem.mode = .locked
    ∧ t.dem.wait = t.dem.origin + 17 * (s.K.bitT : Int) + (s.K.phaseT : Int) - (s.dem.t : Int)
    ∧ SameSpec { s with dem := { s.dem with
        origin := t.dem.origin, syncLevel := t.dem.syncLevel, jit := t.dem.jit, thr := t.dem.thr
        bidx := t.dem.bidx, wait := t.dem.wait, mode := t.dem.mode } } t
    ∧ t.out = s.out

/-- 40_demod.md R106: an accepted transition first sets the current bit and level, and nothing else; then an expired wait is
prolonged by one bit and takes a frame bit. -/
def Obligations.LockedStepTracksThenSamples : Prop :=
  ∀ (s : State) (acc : Bool) (c : Change), ∃ s' : State,
    (acc = true → s' = { s with dem := { s.dem with curBit := c.pol ^^ s.cfg.getLsbD 1, curLvl := c.level } })
    ∧ (acc = false → s' = s)
    ∧ (0 < s.dem.wait → exec (.lockedStep acc c) s = .next s')
    ∧ (s.dem.wait ≤ 0 → exec (.lockedStep acc c) s =
        exec (.framebit s'.dem.curBit) { s' with dem := { s'.dem with wait := s.dem.wait + (s.K.bitT : Int) } })
    ∧ ∃ t, exec (.lockedStep acc c) s = .next t

/-- 40_demod.md R107: frame bit 33 is the marker, bits 34 to 183 are `fb[0..149]`; the last one completes the frame. -/
def Obligations.FramebitStoresMarkerAndCodedBits : Prop :=
  ∀ (s : State) (b : Bool), 33 ≤ s.dem.bidx → s.dem.bidx ≤ 183 → ∃ d : Demod,
    (s.dem.bidx = 33 → d = { s.dem with rxMarker := b, bidx := 34 })
    ∧ (34 ≤ s.dem.bidx → d = { s.dem with fb := d.fb, bidx := s.dem.bidx + 1 }
        ∧ ∀ n, n < 150 → bitAt d.fb n = if n = s.dem.bidx - 34 then b else bitAt s.dem.fb n)
    ∧ (s.dem.bidx < 183 →
        exec (.framebit b) s = .next { s with dem := d, out := s.out ++ [.rawbit b s.dem.curLvl] })
    ∧ (s.dem.bidx = 183 →
        exec (.framebit b) s = exec .framedone { s with dem := d, out := s.out ++ [.rawbit b s.dem.curLvl] })
    ∧ ∃ t, exec (.framebit b) s = .next t

/-- 40_demod.md R108, 60_exceptions.md R223: the end of a frame. An uncorrectable one sets `stat = 3`, an all-identical one
`stat = 4`, and neither leaves any other trace; an accepted one writes the result registers, is reported, and corrects the
clock when that is enabled and its timing is valid. -/
def Obligations.FramedoneRejectsDiscardsOrAccepts : Prop :=
  ∀ s : State,
    (decodeTelegram s.K s.dem.fb = none →
      exec .framedone s = .next { s with
        dem := { s.dem with mode := .unsync, nb := 0, skipseen := false }, stat := .uncorrectable })
    ∧ ∀ g : Telegram, decodeTelegram s.K s.dem.fb = some g →
      ((unpadPayload g.info = 0#64 ∨ unpadPayload g.info = BitVec.allOnes 64) →
        exec .framedone s = .next { s with
          dem := { s.dem with mode := .unsync, nb := 0, skipseen := false }, stat := .idleDiscard })
      ∧ (¬(unpadPayload g.info = 0#64 ∨ unpadPayload g.info = BitVec.allOnes 64) → ∃ (r : RxResult) (clk : Nat),
        exec .framedone s = .next { s with
          dem := { s.dem with mode := .unsync, nb := 0, skipseen := false }
          stat := if r.errcnt = 0 then .ok else .okCorrected
          rx := r
          clk := clk
          out := s.out ++ [.rxframe r] }
        ∧ (∀ n, n < 64 → bitAt r.payload n = bitAt g.info n)
        ∧ (∀ n, n < 6 → bitAt r.opcode n = bitAt g.info n)
        ∧ (∀ n, n < 6 → bitAt r.pad n = bitAt g.info (64 + n))
        ∧ r.eflag = g.eflag ∧ r.errcnt = g.eflag.sum ∧ r.level = s.dem.syncLevel ∧ r.jitter = s.dem.jit
        ∧ r.tvalid = !s.dem.skipseen
        ∧ (s.dem.skipseen = true → r.syncerr = 0)
        ∧ (s.dem.skipseen = false → r.syncerr = syncErr s s.dem.origin)
        ∧ (s.cfg.getLsbD 2 = true → s.dem.skipseen = false →
            exec (.clkcorr r.syncerr) s = .next { s with clk := clk })
        ∧ (¬(s.cfg.getLsbD 2 = true ∧ s.dem.skipseen = false) → clk = s.clk))

/-- 40_demod.md R91, 60_exceptions.md R229: the order of things inside one `SAMPLE`: the clock with its transmit bit, the time,
the window, classification with the threshold as it was, the wait, then the step of the mode the block was in. -/
def Obligations.SampleRunsItsPhasesInOrder : Prop :=
  ∀ (s : State) (arg : Arg), ∃ a b t : State,
    exec .clktick { s with out := [], ret := .none } = .next a
    ∧ exec (.winpush (sampleOperand s.K arg)) { a with dem := { a.dem with t := a.dem.t + s.K.tps } } = .next b
    ∧ exec (.sample arg) s = .next t
    ∧ ∃ (c : Change) (acc : Bool),
        c = (if s.cfg.getLsbD 0 then classifyZc b.dem.win else classifySlope b.dem.win)
        ∧ (acc = true ↔ b.dem.wfill = s.K.w ∧ accept s.K c s.dem.thr = true)
        ∧ (s.dem.mode = .unsync →
            exec (.unsyncStep acc c) { b with dem := { b.dem with wait := s.dem.wait - (s.K.tps : Int) } } = .next t)
        ∧ (s.dem.mode = .locked →
            exec (.lockedStep acc c) { b with dem := { b.dem with wait := s.dem.wait - (s.K.tps : Int) } } = .next t)

/-- 40_demod.md R92: `SAMPLESKIP` is one clock tick and sets `skipseen`; the rest of the demodulator stands still. -/
def Obligations.SampleskipIsOneClockTick : Prop :=
  ∀ s : State, ∃ a : State, exec .clktick { s with out := [], ret := .none } = .next a
    ∧ exec .sampleskip s = .next { a with dem := { s.dem with skipseen := true } }

/-- 40_demod.md R111: the transitions of the sequencer are exactly these. -/
def Obligations.SequencerTransitionsAreExactlyThese : Prop :=
  ∀ (r : Req) (s t : State), Inv s → exec (decode r) s = .next t →
    (t.dem.mode = s.dem.mode ∧ t.dem.bidx = s.dem.bidx)
    ∨ (decode r = .reset ∧ t.dem.mode = .unsync ∧ t.dem.bidx = 0)
    ∨ ((∃ arg, decode r = .sample arg) ∧
        ((s.dem.mode = .unsync ∧ t.dem.mode = .locked ∧ t.dem.bidx = 33)
        ∨ (s.dem.mode = .locked ∧ s.dem.bidx < 183 ∧ t.dem.mode = .locked ∧ t.dem.bidx = s.dem.bidx + 1)
        ∨ (s.dem.mode = .locked ∧ s.dem.bidx = 183 ∧ t.dem.mode = .unsync ∧ t.dem.bidx = 184)))

/-- 40_demod.md R111, R107: from the lock to the end of its frame, whatever requests but `RESET` come, exactly one recovered bit
is reported per frame index, 151 in all. -/
def Obligations.LockedFrameTakes151Bits : Prop :=
  ∀ (rs : List Req) (s t : State) (ev : List Event), Inv s → s.dem.mode = .locked → s.dem.bidx = 33 →
    (∀ r ∈ rs, decode r ≠ .reset) → perform rs s = some (t, ev) →
    (∀ k, k < rs.length → ∃ u, perform (rs.take k) s = some u ∧ u.1.dem.mode = .locked) →
    33 + ev.countP isRawbit = t.dem.bidx ∧ (t.dem.mode = .unsync → ev.countP isRawbit = 151)

/-- 40_demod.md R105, R106, 70_reset_and_hazards.md R254: while locked, when the next bit is sampled does not depend on any
sample: each `SAMPLE` takes `TPS` from the wait, and an expiry adds exactly `BIT_T` and takes one bit. -/
def Obligations.LockedTimingIgnoresTheSignal : Prop :=
  ∀ (s : State) (arg : Arg), s.dem.mode = .locked → ∃ t, exec (.sample arg) s = .next t
    ∧ (0 < s.dem.wait - (s.K.tps : Int) → t.dem.wait = s.dem.wait - (s.K.tps : Int)
        ∧ t.dem.bidx = s.dem.bidx ∧ t.dem.mode = .locked)
    ∧ (s.dem.wait - (s.K.tps : Int) ≤ 0 → t.dem.wait = s.dem.wait - (s.K.tps : Int) + (s.K.bitT : Int)
        ∧ t.dem.bidx = s.dem.bidx + 1 ∧ (t.dem.mode = .unsync ↔ s.dem.bidx = 183))
    ∧ t.dem.thr = s.dem.thr

/-- 70_reset_and_hazards.md R266: reception does not depend on transmission: two runs of the same requests from states that
differ only in the transmit registers and `FLAGS` receive the same. -/
def Obligations.ReceptionIgnoresTransmission : Prop :=
  ∀ (rs : List Req) (s s' : State), SameReceive s s' → ∃ (t t' : State) (ev ev' : List Event),
    perform rs s = some (t, ev) ∧ perform rs s' = some (t', ev') ∧ SameReceive t t'
    ∧ ev.filter (fun e => !isTxbit e) = ev'.filter (fun e => !isTxbit e)

/-- 40_demod.md R91: the events of one `SAMPLE` are at most one `TXBIT`, then at most one `RAWBIT`, then at most one
`RXFRAME`. -/
def Obligations.SampleEventsComeInOrder : Prop :=
  ∀ (s : State) (arg : Arg), ∃ (t : State) (a b c : List Event), exec (.sample arg) s = .next t
    ∧ t.out = a ++ b ++ c
    ∧ (a = [] ∨ ∃ x, a = [.txbit x]) ∧ (b = [] ∨ ∃ x l, b = [.rawbit x l])
    ∧ (c = [] ∨ (b ≠ [] ∧ ∃ r, c = [.rxframe r]))

/-- 10_state.md R24, R31: no request but `RESET` changes the result registers, except the `SAMPLE` that accepts a frame, which
writes them together and reports them in one `RXFRAME`. -/
def Obligations.ResultsChangeOnlyOnAcceptance : Prop :=
  ∀ (r : Req) (s t : State), exec (decode r) s = .next t → decode r ≠ .reset →
    (t.rx = s.rx ∧ ∀ q, .rxframe q ∉ t.out)
    ∨ ((∃ arg, decode r = .sample arg) ∧ s.dem.mode = .locked ∧ t.dem.mode = .unsync
        ∧ (t.stat = .ok ∨ t.stat = .okCorrected) ∧ ∃ o, t.out = o ++ [.rxframe t.rx] ∧ ∀ q, .rxframe q ∉ o)
end

