-- ==== Sys2Proof/Laws/Bits.lean ====
section
/-! SUPPORT. The bit-sequence operations, said once: what bit `i` of each result is, and that a sequence is its bits. -/

set_option Elab.async false

namespace Sys2Proof.Machine

theorem bitAt_of_ge {n : Nat} (v : BitVec n) {i : Nat} (h : n ≤ i) : bitAt v i = false := by
  simp [bitAt, BitVec.getMsbD, Nat.not_lt.mpr h]

theorem bitAt_eq_getLsbD {n : Nat} (v : BitVec n) {i : Nat} (h : i < n) : bitAt v i = v.getLsbD (n - 1 - i) := by
  simp [bitAt, BitVec.getMsbD, h]

theorem bitAt_ofBits (n : Nat) (f : Nat → Bool) (i : Nat) :
    bitAt (ofBits n f) i = (decide (i < n) && f i) := by
  induction n with
  | zero => simp [ofBits, bitAt]
  | succ n ih =>
    by_cases h : i < n
    · have ih' := bitAt_eq_getLsbD (ofBits n f) h
      rw [ih] at ih'
      rw [bitAt_eq_getLsbD _ (Nat.lt_succ_of_lt h), ofBits, BitVec.getLsbD_concat]
      have e : n + 1 - 1 - i = (n - 1 - i) + 1 := by omega
      simp only [e]
      simp [← ih', h, Nat.lt_succ_of_lt h]
    · by_cases h' : i = n
      · subst h'
        rw [bitAt_eq_getLsbD _ (Nat.lt_succ_self i), ofBits, BitVec.getLsbD_concat]
        simp
      · have : n + 1 ≤ i := by omega
        rw [bitAt_of_ge _ this]
        simp [show ¬ i < n + 1 by omega]

@[simp] theorem bitAt_ofBits_lt {n : Nat} {f : Nat → Bool} {i : Nat} (h : i < n) : bitAt (ofBits n f) i = f i := by
  simp [bitAt_ofBits, h]

/-- A sequence is determined by its bits. -/
theorem eq_of_bitAt {n : Nat} {a b : BitVec n} (h : ∀ i, i < n → bitAt a i = bitAt b i) : a = b := by
  apply BitVec.eq_of_getMsbD_eq
  intro i hi
  exact h i hi

theorem ofBits_bitAt {n : Nat} (v : BitVec n) : ofBits n (bitAt v) = v :=
  eq_of_bitAt fun _ hi => bitAt_ofBits_lt hi

theorem bitAt_slice {n : Nat} (v : BitVec n) (start len i : Nat) :
    bitAt (slice v start len) i = (decide (i < len) && bitAt v (start + i)) := bitAt_ofBits _ _ _

theorem bitAt_flipBit {n : Nat} (v : BitVec n) (i k : Nat) :
    bitAt (flipBit v i) k = (decide (k < n) && if k = i then !bitAt v k else bitAt v k) := bitAt_ofBits _ _ _

theorem bitAt_setBitAt {n : Nat} (v : BitVec n) (i : Nat) (b : Bool) (k : Nat) :
    bitAt (setBitAt v i b) k = (decide (k < n) && if k = i then b else bitAt v k) := bitAt_ofBits _ _ _

theorem bitAt_shiftBits {n : Nat} (v : BitVec n) (b : Bool) (k : Nat) :
    bitAt (shiftBits v b) k = (decide (k < n) && if k + 1 = n then b else bitAt v (k + 1)) := bitAt_ofBits _ _ _

theorem bitAt_xor {n : Nat} (a b : BitVec n) (i : Nat) : bitAt (a ^^^ b) i = (bitAt a i ^^ bitAt b i) := by
  simp [bitAt]

theorem bitAt_append {m n : Nat} (a : BitVec m) (b : BitVec n) (i : Nat) :
    bitAt (a ++ b) i = if i < m then bitAt a i else bitAt b (i - m) := by
  simp only [bitAt, BitVec.getMsbD_append]
  by_cases h : i < m
  · simp [h, Nat.not_le.mpr h]
  · simp [h, Nat.not_lt.mp h]

theorem ham_comm {n : Nat} (a b : BitVec n) : ham a b = ham b a := by
  simp [ham, BitVec.xor_comm]

theorem ham_self {n : Nat} (a : BitVec n) : ham a a = 0 := by
  simp [ham, weight, bitAt]

/-- `ham` counts the indices at which two sequences differ (00_scope.md R7). -/
theorem ham_eq_countP {n : Nat} (a b : BitVec n) :
    ham a b = (List.range n).countP fun i => bitAt a i != bitAt b i := by
  simp [ham, weight, bitAt_xor, Bool.xor]

@[simp] theorem length_shiftIn {α : Type} (l : List α) (x : α) : (shiftIn l x).length = l.length - 1 + 1 := by
  simp [shiftIn]

theorem mem_shiftIn {α : Type} {l : List α} {x y : α} (h : y ∈ shiftIn l x) : y ∈ l ∨ y = x := by
  simp only [shiftIn, List.mem_append, List.mem_singleton] at h
  exact h.imp_left List.mem_of_mem_drop

/-- Entry `i` of a moved array is entry `i + 1` of the old one, and the last is the new one. -/
theorem getElem?_shiftIn {α : Type} (l : List α) (x : α) (i : Nat) :
    (shiftIn l x)[i]? = if i < l.length - 1 then l[i + 1]? else if i = l.length - 1 then some x else none := by
  simp only [shiftIn, List.getElem?_append, List.length_drop, List.getElem?_drop]
  by_cases h : i < l.length - 1
  · simp [h, Nat.add_comm]
  · by_cases h' : i = l.length - 1
    · simp [h']
    · have : i - (l.length - 1) ≠ 0 := by omega
      simp [h, h', this]

end Sys2Proof.Machine
end

