-- ==== Sys2Proof/Laws/Decode.lean ====
section
/-! SUPPORT. The two fields of a request word, said once. -/

set_option Elab.async false

namespace Sys2Proof

theorem getLsbD_mkReq (op : BitVec 4) (arg : Arg) (i : Nat) :
    (mkReq op arg).getLsbD i = if i < 64 then arg.getLsbD i else op.getLsbD (i - 64) :=
  BitVec.getLsbD_append

@[simp] theorem opOf_mkReq (op : BitVec 4) (arg : Arg) : opOf (mkReq op arg) = op := by
  apply BitVec.eq_of_getLsbD_eq
  intro i hi
  simp [opOf, getLsbD_mkReq, hi]

@[simp] theorem argOf_mkReq (op : BitVec 4) (arg : Arg) : argOf (mkReq op arg) = arg := by
  apply BitVec.eq_of_getLsbD_eq
  intro i hi
  simp [argOf, getLsbD_mkReq, hi]

/-- A request word is its two fields. -/
theorem mkReq_fields (r : Req) : mkReq (opOf r) (argOf r) = r := by
  apply BitVec.eq_of_getLsbD_eq
  intro i hi
  rw [getLsbD_mkReq]
  by_cases h : i < 64
  · simp [argOf, h]
  · have h4 : i - 64 < 4 := by omega
    have e : 64 + (i - 64) = i := by omega
    simp [opOf, h, h4, e]

end Sys2Proof
end

