-- ==== Sys2Proof/Laws/State.lean ====
section
/-! SUPPORT. One lemma per field per named update: the fields an operation over state does not touch. With them no later
proof unfolds a record update. -/

set_option Elab.async false

namespace Sys2Proof.Machine

/-! ### emit -/

@[simp] theorem emit_K (e : Event) (s : State) : (emit e s).K = s.K := rfl
@[simp] theorem emit_dem (e : Event) (s : State) : (emit e s).dem = s.dem := rfl
@[simp] theorem emit_cfg (e : Event) (s : State) : (emit e s).cfg = s.cfg := rfl
@[simp] theorem emit_flags (e : Event) (s : State) : (emit e s).flags = s.flags := rfl
@[simp] theorem emit_stat (e : Event) (s : State) : (emit e s).stat = s.stat := rfl
@[simp] theorem emit_rx (e : Event) (s : State) : (emit e s).rx = s.rx := rfl
@[simp] theorem emit_clk (e : Event) (s : State) : (emit e s).clk = s.clk := rfl
@[simp] theorem emit_tx (e : Event) (s : State) : (emit e s).tx = s.tx := rfl
@[simp] theorem emit_reqs (e : Event) (s : State) : (emit e s).reqs = s.reqs := rfl
@[simp] theorem emit_ret (e : Event) (s : State) : (emit e s).ret = s.ret := rfl

@[simp] theorem emit_out (e : Event) (s : State) : (emit e s).out = s.out ++ [e] := rfl

/-! ### beginRequest -/

@[simp] theorem beginRequest_K (s : State) : (beginRequest s).K = s.K := rfl
@[simp] theorem beginRequest_dem (s : State) : (beginRequest s).dem = s.dem := rfl
@[simp] theorem beginRequest_cfg (s : State) : (beginRequest s).cfg = s.cfg := rfl
@[simp] theorem beginRequest_flags (s : State) : (beginRequest s).flags = s.flags := rfl
@[simp] theorem beginRequest_stat (s : State) : (beginRequest s).stat = s.stat := rfl
@[simp] theorem beginRequest_rx (s : State) : (beginRequest s).rx = s.rx := rfl
@[simp] theorem beginRequest_clk (s : State) : (beginRequest s).clk = s.clk := rfl
@[simp] theorem beginRequest_tx (s : State) : (beginRequest s).tx = s.tx := rfl
@[simp] theorem beginRequest_reqs (s : State) : (beginRequest s).reqs = s.reqs := rfl

@[simp] theorem beginRequest_out (s : State) : (beginRequest s).out = [] := rfl
@[simp] theorem beginRequest_ret (s : State) : (beginRequest s).ret = .none := rfl

/-! ### returns -/

@[simp] theorem returns_K (v : Value) (s : State) : (returns v s).K = s.K := rfl
@[simp] theorem returns_dem (v : Value) (s : State) : (returns v s).dem = s.dem := rfl
@[simp] theorem returns_cfg (v : Value) (s : State) : (returns v s).cfg = s.cfg := rfl
@[simp] theorem returns_flags (v : Value) (s : State) : (returns v s).flags = s.flags := rfl
@[simp] theorem returns_stat (v : Value) (s : State) : (returns v s).stat = s.stat := rfl
@[simp] theorem returns_rx (v : Value) (s : State) : (returns v s).rx = s.rx := rfl
@[simp] theorem returns_clk (v : Value) (s : State) : (returns v s).clk = s.clk := rfl
@[simp] theorem returns_tx (v : Value) (s : State) : (returns v s).tx = s.tx := rfl
@[simp] theorem returns_reqs (v : Value) (s : State) : (returns v s).reqs = s.reqs := rfl
@[simp] theorem returns_out (v : Value) (s : State) : (returns v s).out = s.out := rfl

@[simp] theorem returns_ret (v : Value) (s : State) : (returns v s).ret = v := rfl

/-! ### reservedRequest -/

@[simp] theorem reservedRequest_K (s : State) : (reservedRequest s).K = s.K := rfl
@[simp] theorem reservedRequest_dem (s : State) : (reservedRequest s).dem = s.dem := rfl
@[simp] theorem reservedRequest_cfg (s : State) : (reservedRequest s).cfg = s.cfg := rfl
@[simp] theorem reservedRequest_stat (s : State) : (reservedRequest s).stat = s.stat := rfl
@[simp] theorem reservedRequest_rx (s : State) : (reservedRequest s).rx = s.rx := rfl
@[simp] theorem reservedRequest_clk (s : State) : (reservedRequest s).clk = s.clk := rfl
@[simp] theorem reservedRequest_tx (s : State) : (reservedRequest s).tx = s.tx := rfl
@[simp] theorem reservedRequest_reqs (s : State) : (reservedRequest s).reqs = s.reqs := rfl

@[simp] theorem reservedRequest_flags (s : State) : (reservedRequest s).flags = withReqErr s.flags := rfl

/-! ### winPush -/

@[simp] theorem winPush_K (x : Int) (s : State) : (winPush x s).K = s.K := rfl
@[simp] theorem winPush_cfg (x : Int) (s : State) : (winPush x s).cfg = s.cfg := rfl
@[simp] theorem winPush_flags (x : Int) (s : State) : (winPush x s).flags = s.flags := rfl
@[simp] theorem winPush_stat (x : Int) (s : State) : (winPush x s).stat = s.stat := rfl
@[simp] theorem winPush_rx (x : Int) (s : State) : (winPush x s).rx = s.rx := rfl
@[simp] theorem winPush_clk (x : Int) (s : State) : (winPush x s).clk = s.clk := rfl
@[simp] theorem winPush_tx (x : Int) (s : State) : (winPush x s).tx = s.tx := rfl
@[simp] theorem winPush_reqs (x : Int) (s : State) : (winPush x s).reqs = s.reqs := rfl
@[simp] theorem winPush_out (x : Int) (s : State) : (winPush x s).out = s.out := rfl
@[simp] theorem winPush_ret (x : Int) (s : State) : (winPush x s).ret = s.ret := rfl

/-! ### advanceTime -/

@[simp] theorem advanceTime_K (s : State) : (advanceTime s).K = s.K := rfl
@[simp] theorem advanceTime_cfg (s : State) : (advanceTime s).cfg = s.cfg := rfl
@[simp] theorem advanceTime_flags (s : State) : (advanceTime s).flags = s.flags := rfl
@[simp] theorem advanceTime_stat (s : State) : (advanceTime s).stat = s.stat := rfl
@[simp] theorem advanceTime_rx (s : State) : (advanceTime s).rx = s.rx := rfl
@[simp] theorem advanceTime_clk (s : State) : (advanceTime s).clk = s.clk := rfl
@[simp] theorem advanceTime_tx (s : State) : (advanceTime s).tx = s.tx := rfl
@[simp] theorem advanceTime_reqs (s : State) : (advanceTime s).reqs = s.reqs := rfl
@[simp] theorem advanceTime_out (s : State) : (advanceTime s).out = s.out := rfl
@[simp] theorem advanceTime_ret (s : State) : (advanceTime s).ret = s.ret := rfl

/-! ### countDown -/

@[simp] theorem countDown_K (s : State) : (countDown s).K = s.K := rfl
@[simp] theorem countDown_cfg (s : State) : (countDown s).cfg = s.cfg := rfl
@[simp] theorem countDown_flags (s : State) : (countDown s).flags = s.flags := rfl
@[simp] theorem countDown_stat (s : State) : (countDown s).stat = s.stat := rfl
@[simp] theorem countDown_rx (s : State) : (countDown s).rx = s.rx := rfl
@[simp] theorem countDown_clk (s : State) : (countDown s).clk = s.clk := rfl
@[simp] theorem countDown_tx (s : State) : (countDown s).tx = s.tx := rfl
@[simp] theorem countDown_reqs (s : State) : (countDown s).reqs = s.reqs := rfl
@[simp] theorem countDown_out (s : State) : (countDown s).out = s.out := rfl
@[simp] theorem countDown_ret (s : State) : (countDown s).ret = s.ret := rfl

/-! ### clearSkip -/

@[simp] theorem clearSkip_K (s : State) : (clearSkip s).K = s.K := rfl
@[simp] theorem clearSkip_cfg (s : State) : (clearSkip s).cfg = s.cfg := rfl
@[simp] theorem clearSkip_flags (s : State) : (clearSkip s).flags = s.flags := rfl
@[simp] theorem clearSkip_stat (s : State) : (clearSkip s).stat = s.stat := rfl
@[simp] theorem clearSkip_rx (s : State) : (clearSkip s).rx = s.rx := rfl
@[simp] theorem clearSkip_clk (s : State) : (clearSkip s).clk = s.clk := rfl
@[simp] theorem clearSkip_tx (s : State) : (clearSkip s).tx = s.tx := rfl
@[simp] theorem clearSkip_reqs (s : State) : (clearSkip s).reqs = s.reqs := rfl
@[simp] theorem clearSkip_out (s : State) : (clearSkip s).out = s.out := rfl
@[simp] theorem clearSkip_ret (s : State) : (clearSkip s).ret = s.ret := rfl

/-! ### lock -/

@[simp] theorem lock_K (s : State) : (lock s).K = s.K := rfl
@[simp] theorem lock_cfg (s : State) : (lock s).cfg = s.cfg := rfl
@[simp] theorem lock_flags (s : State) : (lock s).flags = s.flags := rfl
@[simp] theorem lock_stat (s : State) : (lock s).stat = s.stat := rfl
@[simp] theorem lock_rx (s : State) : (lock s).rx = s.rx := rfl
@[simp] theorem lock_clk (s : State) : (lock s).clk = s.clk := rfl
@[simp] theorem lock_tx (s : State) : (lock s).tx = s.tx := rfl
@[simp] theorem lock_reqs (s : State) : (lock s).reqs = s.reqs := rfl
@[simp] theorem lock_out (s : State) : (lock s).out = s.out := rfl
@[simp] theorem lock_ret (s : State) : (lock s).ret = s.ret := rfl

/-! ### clkCorr -/

@[simp] theorem clkCorr_K (e : Int) (s : State) : (clkCorr e s).K = s.K := rfl
@[simp] theorem clkCorr_dem (e : Int) (s : State) : (clkCorr e s).dem = s.dem := rfl
@[simp] theorem clkCorr_cfg (e : Int) (s : State) : (clkCorr e s).cfg = s.cfg := rfl
@[simp] theorem clkCorr_flags (e : Int) (s : State) : (clkCorr e s).flags = s.flags := rfl
@[simp] theorem clkCorr_stat (e : Int) (s : State) : (clkCorr e s).stat = s.stat := rfl
@[simp] theorem clkCorr_rx (e : Int) (s : State) : (clkCorr e s).rx = s.rx := rfl
@[simp] theorem clkCorr_tx (e : Int) (s : State) : (clkCorr e s).tx = s.tx := rfl
@[simp] theorem clkCorr_reqs (e : Int) (s : State) : (clkCorr e s).reqs = s.reqs := rfl
@[simp] theorem clkCorr_out (e : Int) (s : State) : (clkCorr e s).out = s.out := rfl
@[simp] theorem clkCorr_ret (e : Int) (s : State) : (clkCorr e s).ret = s.ret := rfl

/-! ### clkLoad -/

@[simp] theorem clkLoad_K (v : Nat) (s : State) : (clkLoad v s).K = s.K := rfl
@[simp] theorem clkLoad_dem (v : Nat) (s : State) : (clkLoad v s).dem = s.dem := rfl
@[simp] theorem clkLoad_cfg (v : Nat) (s : State) : (clkLoad v s).cfg = s.cfg := rfl
@[simp] theorem clkLoad_flags (v : Nat) (s : State) : (clkLoad v s).flags = s.flags := rfl
@[simp] theorem clkLoad_stat (v : Nat) (s : State) : (clkLoad v s).stat = s.stat := rfl
@[simp] theorem clkLoad_rx (v : Nat) (s : State) : (clkLoad v s).rx = s.rx := rfl
@[simp] theorem clkLoad_tx (v : Nat) (s : State) : (clkLoad v s).tx = s.tx := rfl
@[simp] theorem clkLoad_reqs (v : Nat) (s : State) : (clkLoad v s).reqs = s.reqs := rfl
@[simp] theorem clkLoad_out (v : Nat) (s : State) : (clkLoad v s).out = s.out := rfl
@[simp] theorem clkLoad_ret (v : Nat) (s : State) : (clkLoad v s).ret = s.ret := rfl

@[simp] theorem clkLoad_clk (v : Nat) (s : State) : (clkLoad v s).clk = v := rfl

/-! ### trackLevel -/

@[simp] theorem trackLevel_K (acc : Bool) (c : Change) (s : State) : (trackLevel acc c s).K = s.K := by
  unfold trackLevel; split <;> rfl
@[simp] theorem trackLevel_cfg (acc : Bool) (c : Change) (s : State) : (trackLevel acc c s).cfg = s.cfg := by
  unfold trackLevel; split <;> rfl
@[simp] theorem trackLevel_flags (acc : Bool) (c : Change) (s : State) : (trackLevel acc c s).flags = s.flags := by
  unfold trackLevel; split <;> rfl
@[simp] theorem trackLevel_stat (acc : Bool) (c : Change) (s : State) : (trackLevel acc c s).stat = s.stat := by
  unfold trackLevel; split <;> rfl
@[simp] theorem trackLevel_rx (acc : Bool) (c : Change) (s : State) : (trackLevel acc c s).rx = s.rx := by
  unfold trackLevel; split <;> rfl
@[simp] theorem trackLevel_clk (acc : Bool) (c : Change) (s : State) : (trackLevel acc c s).clk = s.clk := by
  unfold trackLevel; split <;> rfl
@[simp] theorem trackLevel_tx (acc : Bool) (c : Change) (s : State) : (trackLevel acc c s).tx = s.tx := by
  unfold trackLevel; split <;> rfl
@[simp] theorem trackLevel_reqs (acc : Bool) (c : Change) (s : State) : (trackLevel acc c s).reqs = s.reqs := by
  unfold trackLevel; split <;> rfl
@[simp] theorem trackLevel_out (acc : Bool) (c : Change) (s : State) : (trackLevel acc c s).out = s.out := by
  unfold trackLevel; split <;> rfl
@[simp] theorem trackLevel_ret (acc : Bool) (c : Change) (s : State) : (trackLevel acc c s).ret = s.ret := by
  unfold trackLevel; split <;> rfl

/-! ### txBoundary -/

@[simp] theorem txBoundary_K (s : State) : (txBoundary s).K = s.K := by
  simp only [txBoundary]; split <;> rfl
@[simp] theorem txBoundary_dem (s : State) : (txBoundary s).dem = s.dem := by
  simp only [txBoundary]; split <;> rfl
@[simp] theorem txBoundary_cfg (s : State) : (txBoundary s).cfg = s.cfg := by
  simp only [txBoundary]; split <;> rfl
@[simp] theorem txBoundary_flags (s : State) : (txBoundary s).flags = s.flags := by
  simp only [txBoundary]; split <;> rfl
@[simp] theorem txBoundary_stat (s : State) : (txBoundary s).stat = s.stat := by
  simp only [txBoundary]; split <;> rfl
@[simp] theorem txBoundary_rx (s : State) : (txBoundary s).rx = s.rx := by
  simp only [txBoundary]; split <;> rfl
@[simp] theorem txBoundary_clk (s : State) : (txBoundary s).clk = s.clk := by
  simp only [txBoundary]; split <;> rfl
@[simp] theorem txBoundary_reqs (s : State) : (txBoundary s).reqs = s.reqs := by
  simp only [txBoundary]; split <;> rfl
@[simp] theorem txBoundary_ret (s : State) : (txBoundary s).ret = s.ret := by
  simp only [txBoundary]; split <;> rfl

/-! ### txLoad -/

@[simp] theorem txLoad_K (p : Payload) (s : State) : (txLoad p s).K = s.K := by
  unfold txLoad; split <;> rfl
@[simp] theorem txLoad_dem (p : Payload) (s : State) : (txLoad p s).dem = s.dem := by
  unfold txLoad; split <;> rfl
@[simp] theorem txLoad_cfg (p : Payload) (s : State) : (txLoad p s).cfg = s.cfg := by
  unfold txLoad; split <;> rfl
@[simp] theorem txLoad_stat (p : Payload) (s : State) : (txLoad p s).stat = s.stat := by
  unfold txLoad; split <;> rfl
@[simp] theorem txLoad_rx (p : Payload) (s : State) : (txLoad p s).rx = s.rx := by
  unfold txLoad; split <;> rfl
@[simp] theorem txLoad_clk (p : Payload) (s : State) : (txLoad p s).clk = s.clk := by
  unfold txLoad; split <;> rfl
@[simp] theorem txLoad_reqs (p : Payload) (s : State) : (txLoad p s).reqs = s.reqs := by
  unfold txLoad; split <;> rfl
@[simp] theorem txLoad_out (p : Payload) (s : State) : (txLoad p s).out = s.out := by
  unfold txLoad; split <;> rfl
@[simp] theorem txLoad_ret (p : Payload) (s : State) : (txLoad p s).ret = s.ret := by
  unfold txLoad; split <;> rfl

/-! ### clkTick -/

@[simp] theorem clkTick_K (s : State) : (clkTick s).K = s.K := by
  simp only [clkTick]; split <;> simp
@[simp] theorem clkTick_dem (s : State) : (clkTick s).dem = s.dem := by
  simp only [clkTick]; split <;> simp
@[simp] theorem clkTick_cfg (s : State) : (clkTick s).cfg = s.cfg := by
  simp only [clkTick]; split <;> simp
@[simp] theorem clkTick_flags (s : State) : (clkTick s).flags = s.flags := by
  simp only [clkTick]; split <;> simp
@[simp] theorem clkTick_stat (s : State) : (clkTick s).stat = s.stat := by
  simp only [clkTick]; split <;> simp
@[simp] theorem clkTick_rx (s : State) : (clkTick s).rx = s.rx := by
  simp only [clkTick]; split <;> simp
@[simp] theorem clkTick_reqs (s : State) : (clkTick s).reqs = s.reqs := by
  simp only [clkTick]; split <;> simp
@[simp] theorem clkTick_ret (s : State) : (clkTick s).ret = s.ret := by
  simp only [clkTick]; split <;> simp

/-! ### bitOut -/

@[simp] theorem bitOut_K (b : Bool) (l : Nat) (a : Int) (s : State) : (bitOut b l a s).K = s.K := by
  simp only [bitOut]; split <;> simp
@[simp] theorem bitOut_cfg (b : Bool) (l : Nat) (a : Int) (s : State) : (bitOut b l a s).cfg = s.cfg := by
  simp only [bitOut]; split <;> simp
@[simp] theorem bitOut_flags (b : Bool) (l : Nat) (a : Int) (s : State) : (bitOut b l a s).flags = s.flags := by
  simp only [bitOut]; split <;> simp
@[simp] theorem bitOut_stat (b : Bool) (l : Nat) (a : Int) (s : State) : (bitOut b l a s).stat = s.stat := by
  simp only [bitOut]; split <;> simp
@[simp] theorem bitOut_rx (b : Bool) (l : Nat) (a : Int) (s : State) : (bitOut b l a s).rx = s.rx := by
  simp only [bitOut]; split <;> simp
@[simp] theorem bitOut_clk (b : Bool) (l : Nat) (a : Int) (s : State) : (bitOut b l a s).clk = s.clk := by
  simp only [bitOut]; split <;> simp
@[simp] theorem bitOut_tx (b : Bool) (l : Nat) (a : Int) (s : State) : (bitOut b l a s).tx = s.tx := by
  simp only [bitOut]; split <;> simp
@[simp] theorem bitOut_reqs (b : Bool) (l : Nat) (a : Int) (s : State) : (bitOut b l a s).reqs = s.reqs := by
  simp only [bitOut]; split <;> simp
@[simp] theorem bitOut_ret (b : Bool) (l : Nat) (a : Int) (s : State) : (bitOut b l a s).ret = s.ret := by
  simp only [bitOut]; split <;> simp

/-! ### unsyncStep -/

@[simp] theorem unsyncStep_K (acc : Bool) (c : Change) (s : State) : (unsyncStep acc c s).K = s.K := by
  unfold unsyncStep; split <;> (try split) <;> simp
@[simp] theorem unsyncStep_cfg (acc : Bool) (c : Change) (s : State) : (unsyncStep acc c s).cfg = s.cfg := by
  unfold unsyncStep; split <;> (try split) <;> simp
@[simp] theorem unsyncStep_flags (acc : Bool) (c : Change) (s : State) : (unsyncStep acc c s).flags = s.flags := by
  unfold unsyncStep; split <;> (try split) <;> simp
@[simp] theorem unsyncStep_stat (acc : Bool) (c : Change) (s : State) : (unsyncStep acc c s).stat = s.stat := by
  unfold unsyncStep; split <;> (try split) <;> simp
@[simp] theorem unsyncStep_rx (acc : Bool) (c : Change) (s : State) : (unsyncStep acc c s).rx = s.rx := by
  unfold unsyncStep; split <;> (try split) <;> simp
@[simp] theorem unsyncStep_clk (acc : Bool) (c : Change) (s : State) : (unsyncStep acc c s).clk = s.clk := by
  unfold unsyncStep; split <;> (try split) <;> simp
@[simp] theorem unsyncStep_tx (acc : Bool) (c : Change) (s : State) : (unsyncStep acc c s).tx = s.tx := by
  unfold unsyncStep; split <;> (try split) <;> simp
@[simp] theorem unsyncStep_reqs (acc : Bool) (c : Change) (s : State) : (unsyncStep acc c s).reqs = s.reqs := by
  unfold unsyncStep; split <;> (try split) <;> simp
@[simp] theorem unsyncStep_ret (acc : Bool) (c : Change) (s : State) : (unsyncStep acc c s).ret = s.ret := by
  unfold unsyncStep; split <;> (try split) <;> simp

/-! ### acceptTelegram -/

@[simp] theorem acceptTelegram_K (g : Telegram) (s : State) : (acceptTelegram g s).K = s.K := by
  simp only [acceptTelegram]; split <;> simp
@[simp] theorem acceptTelegram_dem (g : Telegram) (s : State) : (acceptTelegram g s).dem = s.dem := by
  simp only [acceptTelegram]; split <;> simp
@[simp] theorem acceptTelegram_cfg (g : Telegram) (s : State) : (acceptTelegram g s).cfg = s.cfg := by
  simp only [acceptTelegram]; split <;> simp
@[simp] theorem acceptTelegram_flags (g : Telegram) (s : State) : (acceptTelegram g s).flags = s.flags := by
  simp only [acceptTelegram]; split <;> simp
@[simp] theorem acceptTelegram_tx (g : Telegram) (s : State) : (acceptTelegram g s).tx = s.tx := by
  simp only [acceptTelegram]; split <;> simp
@[simp] theorem acceptTelegram_reqs (g : Telegram) (s : State) : (acceptTelegram g s).reqs = s.reqs := by
  simp only [acceptTelegram]; split <;> simp
@[simp] theorem acceptTelegram_ret (g : Telegram) (s : State) : (acceptTelegram g s).ret = s.ret := by
  simp only [acceptTelegram]; split <;> simp

/-! ### settleFrame -/

@[simp] theorem settleFrame_K (s : State) : (settleFrame s).K = s.K := by
  unfold settleFrame; split <;> (try split) <;> simp
@[simp] theorem settleFrame_dem (s : State) : (settleFrame s).dem = s.dem := by
  unfold settleFrame; split <;> (try split) <;> simp
@[simp] theorem settleFrame_cfg (s : State) : (settleFrame s).cfg = s.cfg := by
  unfold settleFrame; split <;> (try split) <;> simp
@[simp] theorem settleFrame_flags (s : State) : (settleFrame s).flags = s.flags := by
  unfold settleFrame; split <;> (try split) <;> simp
@[simp] theorem settleFrame_tx (s : State) : (settleFrame s).tx = s.tx := by
  unfold settleFrame; split <;> (try split) <;> simp
@[simp] theorem settleFrame_reqs (s : State) : (settleFrame s).reqs = s.reqs := by
  unfold settleFrame; split <;> (try split) <;> simp
@[simp] theorem settleFrame_ret (s : State) : (settleFrame s).ret = s.ret := by
  unfold settleFrame; split <;> (try split) <;> simp

/-! ### frameDone -/

@[simp] theorem frameDone_K (s : State) : (frameDone s).K = s.K := by
  simp [frameDone]
@[simp] theorem frameDone_cfg (s : State) : (frameDone s).cfg = s.cfg := by
  simp [frameDone]
@[simp] theorem frameDone_flags (s : State) : (frameDone s).flags = s.flags := by
  simp [frameDone]
@[simp] theorem frameDone_tx (s : State) : (frameDone s).tx = s.tx := by
  simp [frameDone]
@[simp] theorem frameDone_reqs (s : State) : (frameDone s).reqs = s.reqs := by
  simp [frameDone]
@[simp] theorem frameDone_ret (s : State) : (frameDone s).ret = s.ret := by
  simp [frameDone]

/-! ### frameBit -/

@[simp] theorem frameBit_K (b : Bool) (s : State) : (frameBit b s).K = s.K := by
  simp only [frameBit]; split <;> simp
@[simp] theorem frameBit_cfg (b : Bool) (s : State) : (frameBit b s).cfg = s.cfg := by
  simp only [frameBit]; split <;> simp
@[simp] theorem frameBit_flags (b : Bool) (s : State) : (frameBit b s).flags = s.flags := by
  simp only [frameBit]; split <;> simp
@[simp] theorem frameBit_tx (b : Bool) (s : State) : (frameBit b s).tx = s.tx := by
  simp only [frameBit]; split <;> simp
@[simp] theorem frameBit_reqs (b : Bool) (s : State) : (frameBit b s).reqs = s.reqs := by
  simp only [frameBit]; split <;> simp
@[simp] theorem frameBit_ret (b : Bool) (s : State) : (frameBit b s).ret = s.ret := by
  simp only [frameBit]; split <;> simp

/-! ### lockedStep -/

@[simp] theorem lockedStep_K (acc : Bool) (c : Change) (s : State) : (lockedStep acc c s).K = s.K := by
  simp only [lockedStep]; split <;> simp
@[simp] theorem lockedStep_cfg (acc : Bool) (c : Change) (s : State) : (lockedStep acc c s).cfg = s.cfg := by
  simp only [lockedStep]; split <;> simp
@[simp] theorem lockedStep_flags (acc : Bool) (c : Change) (s : State) : (lockedStep acc c s).flags = s.flags := by
  simp only [lockedStep]; split <;> simp
@[simp] theorem lockedStep_tx (acc : Bool) (c : Change) (s : State) : (lockedStep acc c s).tx = s.tx := by
  simp only [lockedStep]; split <;> simp
@[simp] theorem lockedStep_reqs (acc : Bool) (c : Change) (s : State) : (lockedStep acc c s).reqs = s.reqs := by
  simp only [lockedStep]; split <;> simp
@[simp] theorem lockedStep_ret (acc : Bool) (c : Change) (s : State) : (lockedStep acc c s).ret = s.ret := by
  simp only [lockedStep]; split <;> simp

/-! ### modeStep -/

@[simp] theorem modeStep_K (acc : Bool) (c : Change) (s : State) : (modeStep acc c s).K = s.K := by
  unfold modeStep; split <;> simp
@[simp] theorem modeStep_cfg (acc : Bool) (c : Change) (s : State) : (modeStep acc c s).cfg = s.cfg := by
  unfold modeStep; split <;> simp
@[simp] theorem modeStep_flags (acc : Bool) (c : Change) (s : State) : (modeStep acc c s).flags = s.flags := by
  unfold modeStep; split <;> simp
@[simp] theorem modeStep_tx (acc : Bool) (c : Change) (s : State) : (modeStep acc c s).tx = s.tx := by
  unfold modeStep; split <;> simp
@[simp] theorem modeStep_reqs (acc : Bool) (c : Change) (s : State) : (modeStep acc c s).reqs = s.reqs := by
  unfold modeStep; split <;> simp
@[simp] theorem modeStep_ret (acc : Bool) (c : Change) (s : State) : (modeStep acc c s).ret = s.ret := by
  unfold modeStep; split <;> simp

/-! ### takeSample -/

@[simp] theorem takeSample_K (x : Int) (s : State) : (takeSample x s).K = s.K := by
  simp [takeSample]
@[simp] theorem takeSample_cfg (x : Int) (s : State) : (takeSample x s).cfg = s.cfg := by
  simp [takeSample]
@[simp] theorem takeSample_flags (x : Int) (s : State) : (takeSample x s).flags = s.flags := by
  simp [takeSample]
@[simp] theorem takeSample_reqs (x : Int) (s : State) : (takeSample x s).reqs = s.reqs := by
  simp [takeSample]
@[simp] theorem takeSample_ret (x : Int) (s : State) : (takeSample x s).ret = s.ret := by
  simp [takeSample]

/-! ### skipSample -/

@[simp] theorem skipSample_K (s : State) : (skipSample s).K = s.K := by
  simp [skipSample]
@[simp] theorem skipSample_cfg (s : State) : (skipSample s).cfg = s.cfg := by
  simp [skipSample]
@[simp] theorem skipSample_flags (s : State) : (skipSample s).flags = s.flags := by
  simp [skipSample]
@[simp] theorem skipSample_stat (s : State) : (skipSample s).stat = s.stat := by
  simp [skipSample]
@[simp] theorem skipSample_rx (s : State) : (skipSample s).rx = s.rx := by
  simp [skipSample]
@[simp] theorem skipSample_reqs (s : State) : (skipSample s).reqs = s.reqs := by
  simp [skipSample]
@[simp] theorem skipSample_ret (s : State) : (skipSample s).ret = s.ret := by
  simp [skipSample]

end Sys2Proof.Machine
end

