-- ==== Sys2Proof/Laws/Ops.lean ====
section
/-! SUPPORT. For each shared operation, one lemma that says once everything it can do; proofs cite it and do not unfold the
operation. -/

set_option Elab.async false

namespace Sys2Proof.Machine

open Sys2Proof.Config

/-! ### Transmit and clock -/

theorem startPending_idle {s : State} (h : (startPending s).act = false) : startPending s = s.tx := by
  unfold startPending at h ⊢
  split
  · rename_i hc; simp [hc] at h
  · rfl

/-- A bit boundary sends the next bit of the frame that is active once a pending one may have started, or does nothing. -/
theorem txBoundary_cases (s : State) :
    ((startPending s).act = true ∧ txBoundary s = { s with
        tx := { startPending s with
          bit := readTxf (startPending s)
          idx := (startPending s).idx + 1
          act := decide ((startPending s).idx + 1 ≠ 184) }
        out := s.out ++ [.txbit (readTxf (startPending s))] })
      ∨ ((startPending s).act = false ∧ txBoundary s = s) := by
  cases h : (startPending s).act with
  | true => exact .inl ⟨rfl, by simp [txBoundary, h, emit]⟩
  | false => exact .inr ⟨rfl, by simp [txBoundary, h]; rw [startPending_idle h]⟩

/-- A pending frame starts, or the transmit registers are as they were. -/
theorem startPending_cases (s : State) :
    (s.tx.pend = true ∧ s.tx.act = false ∧ bitPeriodIndex s = s.K.txoffBits
        ∧ startPending s = { s.tx with txf := s.tx.txn, pend := false, act := true, idx := 0 })
      ∨ (¬(s.tx.pend = true ∧ s.tx.act = false ∧ bitPeriodIndex s = s.K.txoffBits) ∧ startPending s = s.tx) := by
  by_cases h : s.tx.pend = true ∧ s.tx.act = false ∧ bitPeriodIndex s = s.K.txoffBits
  · exact .inl ⟨h.1, h.2.1, h.2.2, by simp [startPending, h.1, h.2.1, h.2.2]⟩
  · refine .inr ⟨h, ?_⟩
    unfold startPending
    split
    · rename_i hc
      exact absurd (by simpa [and_assoc] using hc) h
    · rfl

/-- A telegram is dropped with `tx_ovr`, or encoded, framed and made pending. -/
theorem txLoad_cases (p : Payload) (s : State) :
    (s.tx.pend = true ∧ txLoad p s = { s with flags := withTxOvr s.flags })
      ∨ (s.tx.pend = false
          ∧ txLoad p s = { s with tx := { s.tx with txn := frame s.K (encodeTelegram s.K p), pend := true } }) := by
  cases h : s.tx.pend <;> simp [txLoad, h]

/-- The clock advances; at a bit boundary the transmit side is invoked with the clock advanced. -/
theorem clkTick_cases (s : State) :
    ((s.clk + s.K.tps) % superT s.K / s.K.bitT ≠ s.clk / s.K.bitT
        ∧ clkTick s = txBoundary { s with clk := (s.clk + s.K.tps) % superT s.K })
      ∨ ((s.clk + s.K.tps) % superT s.K / s.K.bitT = s.clk / s.K.bitT
        ∧ clkTick s = { s with clk := (s.clk + s.K.tps) % superT s.K }) := by
  by_cases h : (s.clk + s.K.tps) % superT s.K / s.K.bitT = s.clk / s.K.bitT
  · exact .inr ⟨h, by simp [clkTick, h]⟩
  · exact .inl ⟨h, by simp [clkTick, h]⟩

@[simp] theorem clkTick_clk (s : State) : (clkTick s).clk = (s.clk + s.K.tps) % superT s.K := by
  rcases clkTick_cases s with ⟨-, h⟩ | ⟨-, h⟩ <;> simp [h]

@[simp] theorem clkCorr_clk (e : Int) (s : State) :
    (clkCorr e s).clk = (((s.clk : Int) - correction s.K e) % (superT s.K : Int)).toNat := rfl

/-! ### History, lock and the mode steps -/

/-- A recovered bit enters the history, and locks or not. -/
theorem bitOut_cases (b : Bool) (l : Nat) (a : Int) (s : State) :
    ((pushHistory b l a s.dem).nb = 33 ∧ syncDet s.K (pushHistory b l a s.dem).sr = true
        ∧ bitOut b l a s = lock { s with dem := pushHistory b l a s.dem, out := s.out ++ [.rawbit b l] })
      ∨ (¬((pushHistory b l a s.dem).nb = 33 ∧ syncDet s.K (pushHistory b l a s.dem).sr = true)
        ∧ bitOut b l a s = { s with dem := pushHistory b l a s.dem, out := s.out ++ [.rawbit b l] }) := by
  by_cases h : (pushHistory b l a s.dem).nb = 33 ∧ syncDet s.K (pushHistory b l a s.dem).sr = true
  · exact .inl ⟨h.1, h.2, by simp [bitOut, emit, h.1, h.2]⟩
  · refine .inr ⟨h, ?_⟩
    simp only [bitOut, emit]
    refine if_neg fun hc => h ?_
    rw [Bool.and_eq_true] at hc
    exact ⟨of_decide_eq_true hc.1, hc.2⟩

/-- An accepted transition, an expired wait, or nothing. -/
theorem unsyncStep_cases (acc : Bool) (c : Change) (s : State) :
    (acc = true ∧ unsyncStep acc c s = bitOut (bitValue s.cfg c) c.level (s.dem.t : Int) { s with dem := { s.dem with
        curBit := bitValue s.cfg c
        curLvl := c.level
        thr := thrNext s.K s.dem.thr (.accepted c.level)
        wait := 3 * (s.K.bitT : Int) / 2 } })
      ∨ (acc = false ∧ s.dem.wait ≤ 0 ∧ unsyncStep acc c s =
          bitOut s.dem.curBit s.dem.curLvl ((s.dem.t : Int) - (s.K.bitT : Int) / 2) { s with dem := { s.dem with
            thr := thrNext s.K s.dem.thr .repeated
            wait := s.dem.wait + (s.K.bitT : Int) } })
      ∨ (acc = false ∧ 0 < s.dem.wait ∧ unsyncStep acc c s = s) := by
  cases acc with
  | true => exact .inl ⟨rfl, rfl⟩
  | false =>
    by_cases h : s.dem.wait ≤ 0
    · exact .inr (.inl ⟨rfl, h, by simp [unsyncStep, h]⟩)
    · exact .inr (.inr ⟨rfl, Int.not_le.mp h, by simp [unsyncStep, h]⟩)

/-- The level is tracked; an expired wait takes one frame bit. -/
theorem lockedStep_cases (acc : Bool) (c : Change) (s : State) :
    ((trackLevel acc c s).dem.wait ≤ 0 ∧ lockedStep acc c s =
        frameBit (trackLevel acc c s).dem.curBit { trackLevel acc c s with
          dem := { (trackLevel acc c s).dem with wait := (trackLevel acc c s).dem.wait + (s.K.bitT : Int) } })
      ∨ (0 < (trackLevel acc c s).dem.wait ∧ lockedStep acc c s = trackLevel acc c s) := by
  by_cases h : (trackLevel acc c s).dem.wait ≤ 0
  · exact .inl ⟨h, by simp [lockedStep, h]⟩
  · exact .inr ⟨Int.not_le.mp h, by simp [lockedStep, h]⟩

@[simp] theorem trackLevel_wait (acc : Bool) (c : Change) (s : State) :
    (trackLevel acc c s).dem.wait = s.dem.wait := by
  unfold trackLevel; split <;> rfl

/-- One frame bit is stored; the last one completes the frame. -/
theorem frameBit_cases (b : Bool) (s : State) :
    ((storeFrameBit b s.dem).bidx = 184 ∧ frameBit b s =
        frameDone { s with dem := storeFrameBit b s.dem, out := s.out ++ [.rawbit b s.dem.curLvl] })
      ∨ ((storeFrameBit b s.dem).bidx ≠ 184 ∧ frameBit b s =
        { s with dem := storeFrameBit b s.dem, out := s.out ++ [.rawbit b s.dem.curLvl] }) := by
  by_cases h : (storeFrameBit b s.dem).bidx = 184
  · exact .inl ⟨h, by simp [frameBit, emit, h]⟩
  · exact .inr ⟨h, by simp [frameBit, emit, h]⟩

@[simp] theorem storeFrameBit_bidx (b : Bool) (d : Demod) : (storeFrameBit b d).bidx = d.bidx + 1 := by
  unfold storeFrameBit; split <;> rfl

/-- A complete frame is uncorrectable (F3), discarded (F4) or accepted. -/
theorem settleFrame_cases (s : State) :
    (decodeTelegram s.K s.dem.fb = none ∧ settleFrame s = { s with stat := .uncorrectable })
      ∨ (∃ g, decodeTelegram s.K s.dem.fb = some g ∧ idleChk (unpadPayload g.info) = true
          ∧ settleFrame s = { s with stat := .idleDiscard })
      ∨ (∃ g, decodeTelegram s.K s.dem.fb = some g ∧ idleChk (unpadPayload g.info) = false
          ∧ settleFrame s = acceptTelegram g s) := by
  cases h : decodeTelegram s.K s.dem.fb with
  | none => exact .inl ⟨rfl, by simp [settleFrame, h]⟩
  | some g =>
    cases hi : idleChk (unpadPayload g.info) with
    | true => exact .inr (.inl ⟨g, rfl, hi, by simp [settleFrame, h, hi]⟩)
    | false => exact .inr (.inr ⟨g, rfl, hi, by simp [settleFrame, h, hi]⟩)

/-- An accepted telegram is reported, and corrects the clock when that is enabled and its timing is valid. -/
theorem acceptTelegram_eq (g : Telegram) (s : State) :
    acceptTelegram g s = { s with
      stat := acceptedStat (rxResultOf s g).errcnt
      rx := rxResultOf s g
      out := s.out ++ [.rxframe (rxResultOf s g)]
      clk := if corrEn s.cfg && (rxResultOf s g).tvalid then (clkCorr (rxResultOf s g).syncerr s).clk else s.clk } := by
  simp only [acceptTelegram, emit]
  split <;> simp_all [clkCorr]

/-! ### Classifiers -/

/-- The steepest pair is one of the pairs, no pair is steeper, and none before it is as steep. -/
theorem steepest_some {ps : List Pair} {p : Pair} (h : steepest ps = some p) :
    p ∈ ps ∧ p.size = maxSize ps ∧ ∃ as bs, ps = as ++ p :: bs ∧ ∀ q ∈ as, q.size ≠ maxSize ps := by
  obtain ⟨hp, as, bs, he, hn⟩ := List.find?_eq_some_iff_append.mp h
  refine ⟨by simp [he], by simpa using hp, as, bs, he, fun q hq => ?_⟩
  simpa using hn q hq

theorem foldl_max_size_le (ps : List Pair) (m : Nat) :
    m ≤ ps.foldl (fun m p => max m p.size) m ∧ ∀ p ∈ ps, p.size ≤ ps.foldl (fun m p => max m p.size) m := by
  induction ps generalizing m with
  | nil => simp
  | cons a as ih =>
    have h := ih (max m a.size)
    refine ⟨le_trans (le_max_left _ _) h.1, fun p hp => ?_⟩
    rcases List.mem_cons.mp hp with rfl | hp
    · exact le_trans (le_max_right _ _) h.1
    · exact h.2 p hp

/-- No pair is steeper than the largest step. -/
theorem size_le_maxSize {ps : List Pair} {p : Pair} (h : p ∈ ps) : p.size ≤ maxSize ps :=
  (foldl_max_size_le ps 0).2 p h

/-! ### Request streams -/

/-- A stream performs its first request, then the rest; the events come in that order (20_memory.md R48). -/
theorem perform_cons {r : Req} {rest : List Req} {s t : State} (h : exec (decode r) s = .next t) :
    perform (r :: rest) s = (perform rest t).map fun q => (q.1, t.out ++ q.2) := by
  simp [perform, h]

/-- A stream of one request performs it. -/
theorem perform_one {r : Req} {s t : State} (h : exec (decode r) s = .next t) : perform [r] s = some (t, t.out) := by
  rw [perform_cons h]; simp only [perform, Option.map_some, List.append_nil]

/-! ### Codec -/

/-- `X[10 * c + g] = CW_g[c]` (42_codec.md R155). -/
theorem bitAt_interleave (cw : Words) {n : Nat} (h : n < 150) :
    bitAt (interleave cw) n = bitAt (cw[n % 10]'(Nat.mod_lt n (by decide))) (n / 10) := bitAt_ofBits_lt h

/-- `V_g[c] = Y[10 * c + g]` (R157). -/
theorem bitAt_deinterleave (y : Coded) {g c : Nat} (hg : g < 10) (hc : c < 15) :
    bitAt ((deinterleave y)[g]) c = bitAt y (10 * c + g) := by
  simp [deinterleave, hc]

/-- The data bits of a word are its first seven (R154). -/
theorem dataBits_append (d : Group) (r : BitVec 8) : dataBits (d ++ r : CodeWord) = d := by
  apply eq_of_bitAt
  intro i hi
  have h : bitAt (d ++ r : CodeWord) i = if i < 7 then bitAt d i else bitAt r (i - 7) := bitAt_append d r i
  simp only [dataBits, bitAt_slice, Nat.zero_add, h]
  simp [hi]

/-- A decoder answer comes from a candidate that is a code word, and no earlier candidate is one. -/
theorem bchDec_some {K : Params} {w : CodeWord} {d : Group} {e : Nat} (h : bchDec K w = some (d, e)) :
    ∃ c as bs, candidates w = as ++ c :: bs ∧ isCode K c.1 = true ∧ dataBits c.1 = d ∧ c.2 = e
      ∧ ∀ q ∈ as, isCode K q.1 = false := by
  simp only [bchDec, Option.map_eq_some_iff] at h
  obtain ⟨c, hc, he⟩ := h
  obtain ⟨hp, as, bs, hl, hn⟩ := List.find?_eq_some_iff_append.mp hc
  obtain ⟨rfl, rfl⟩ := Prod.mk.inj he
  exact ⟨c, as, bs, hl, hp, rfl, rfl, fun q hq => by simpa using hn q hq⟩

/-- The decoder fails when no candidate is a code word. -/
theorem bchDec_none {K : Params} {w : CodeWord} :
    bchDec K w = none ↔ ∀ c ∈ candidates w, isCode K c.1 = false := by
  simp [bchDec, List.find?_eq_none]

/-- All words decode exactly when each of them does, and the results are theirs, in order. -/
theorem decodeWords_some {K : Params} {ws : List CodeWord} {rs : List (Group × Nat)} :
    decodeWords K ws = some rs ↔ List.Forall₂ (fun w r => bchDec K w = some r) ws rs := by
  induction ws generalizing rs with
  | nil => cases rs <;> simp [decodeWords]
  | cons w ws ih =>
    cases hw : bchDec K w with
    | none => cases rs <;> simp [decodeWords, hw]
    | some r =>
      cases hs : decodeWords K ws with
      | none =>
        simp only [decodeWords, hw, hs]
        constructor
        · intro h; cases h
        · intro h
          cases h with
          | cons _ ht => rw [ih.mpr ht] at hs; cases hs
      | some rs' =>
        simp only [decodeWords, hw, hs, Option.some.injEq]
        constructor
        · rintro rfl
          exact .cons hw (ih.mp hs)
        · intro h
          cases h with
          | cons h1 ht =>
            rw [ih.mpr ht] at hs
            rw [hw] at h1
            cases hs; cases h1; rfl

/-- The words fail together exactly when one of them fails. -/
theorem decodeWords_none {K : Params} {ws : List CodeWord} :
    decodeWords K ws = none ↔ ∃ w ∈ ws, bchDec K w = none := by
  induction ws with
  | nil => simp [decodeWords]
  | cons w ws ih =>
    cases hw : bchDec K w with
    | none => simp [decodeWords, hw]
    | some r =>
      cases hs : decodeWords K ws with
      | none =>
        obtain ⟨v, hv, hn⟩ := ih.mp hs
        simp only [decodeWords, hw, hs, true_iff]
        exact ⟨v, List.mem_cons_of_mem _ hv, hn⟩
      | some rs =>
        simp only [decodeWords, hw, hs, List.mem_cons]
        constructor
        · intro h; cases h
        · rintro ⟨v, rfl | hv, hn⟩
          · rw [hw] at hn; cases hn
          · rw [ih.mpr ⟨v, hv, hn⟩] at hs; cases hs

end Sys2Proof.Machine
end

