-- ==== Sys2Proof/Laws/PerInstr.lean ====
section
/-! SUPPORT. One law per operation: the request code its encoding carries is the one 30_encoding.md R70 gives it, and an
internal operation has no encoding (R75). -/

set_option Elab.async false

namespace Sys2Proof.Laws.RequestCode

/-- The request code of an operation (R70); none for an internal one (R75). -/
def code : Instr → Option (BitVec 4)
  | .nop => some 0x0#4
  | .reset => some 0x1#4
  | .cfgwr _ => some 0x2#4
  | .sample _ => some 0x3#4
  | .sampleskip => some 0x4#4
  | .txload _ => some 0x5#4
  | .clkload _ => some 0x6#4
  | .reserved7 => some 0x7#4
  | .reserved8 => some 0x8#4
  | .reserved9 => some 0x9#4
  | .reservedA => some 0xA#4
  | .reservedB => some 0xB#4
  | .reservedC => some 0xC#4
  | .reservedD => some 0xD#4
  | .reservedE => some 0xE#4
  | .reservedF => some 0xF#4
  | .clktick => none
  | .txbit => none
  | .winpush _ => none
  | .classifySlope _ => none
  | .classifyZc _ => none
  | .accept _ _ => none
  | .unsyncStep _ _ => none
  | .bitout _ _ _ => none
  | .syncdet _ => none
  | .lock => none
  | .lockedStep _ _ => none
  | .framebit _ => none
  | .framedone => none
  | .syncerr _ => none
  | .clkcorr _ => none
  | .pad _ => none
  | .bchenc _ => none
  | .interleave _ => none
  | .encode _ => none
  | .frame _ => none
  | .deinterleave _ => none
  | .bchdec _ => none
  | .decode _ => none
  | .idlechk _ => none

/-- The encoding of `i` carries the code of `i`. -/
def Statement (i : Instr) : Prop := (encode i).map opOf = code i

theorem nop : Statement (.nop) :=
  congrArg some (opOf_mkReq _ _)

theorem reset : Statement (.reset) :=
  congrArg some (opOf_mkReq _ _)

theorem cfgwr (c : BitVec 3) : Statement (.cfgwr c) :=
  congrArg some (opOf_mkReq _ _)

theorem sample (arg : Arg) : Statement (.sample arg) :=
  congrArg some (opOf_mkReq _ _)

theorem sampleskip : Statement (.sampleskip) :=
  congrArg some (opOf_mkReq _ _)

theorem txload (p : Payload) : Statement (.txload p) :=
  congrArg some (opOf_mkReq _ _)

theorem clkload (arg : Arg) : Statement (.clkload arg) :=
  congrArg some (opOf_mkReq _ _)

theorem reserved7 : Statement (.reserved7) :=
  congrArg some (opOf_mkReq _ _)

theorem reserved8 : Statement (.reserved8) :=
  congrArg some (opOf_mkReq _ _)

theorem reserved9 : Statement (.reserved9) :=
  congrArg some (opOf_mkReq _ _)

theorem reservedA : Statement (.reservedA) :=
  congrArg some (opOf_mkReq _ _)

theorem reservedB : Statement (.reservedB) :=
  congrArg some (opOf_mkReq _ _)

theorem reservedC : Statement (.reservedC) :=
  congrArg some (opOf_mkReq _ _)

theorem reservedD : Statement (.reservedD) :=
  congrArg some (opOf_mkReq _ _)

theorem reservedE : Statement (.reservedE) :=
  congrArg some (opOf_mkReq _ _)

theorem reservedF : Statement (.reservedF) :=
  congrArg some (opOf_mkReq _ _)

theorem clktick : Statement (.clktick) := rfl

theorem txbit : Statement (.txbit) := rfl

theorem winpush (s : Int) : Statement (.winpush s) := rfl

theorem classifySlope (win : List Int) : Statement (.classifySlope win) := rfl

theorem classifyZc (win : List Int) : Statement (.classifyZc win) := rfl

theorem accept (c : Change) (thr : Nat) : Statement (.accept c thr) := rfl

theorem unsyncStep (acc : Bool) (c : Change) : Statement (.unsyncStep acc c) := rfl

theorem bitout (b : Bool) (l : Nat) (a : Int) : Statement (.bitout b l a) := rfl

theorem syncdet (w : SyncWindow) : Statement (.syncdet w) := rfl

theorem lock : Statement (.lock) := rfl

theorem lockedStep (acc : Bool) (c : Change) : Statement (.lockedStep acc c) := rfl

theorem framebit (b : Bool) : Statement (.framebit b) := rfl

theorem framedone : Statement (.framedone) := rfl

theorem syncerr (origin : Int) : Statement (.syncerr origin) := rfl

theorem clkcorr (e : Int) : Statement (.clkcorr e) := rfl

theorem pad (f : PadForm) : Statement (.pad f) := rfl

theorem bchenc (d : Group) : Statement (.bchenc d) := rfl

theorem interleave (cw : Words) : Statement (.interleave cw) := rfl

theorem encode (p : Payload) : Statement (.encode p) := rfl

theorem frame (x : Coded) : Statement (.frame x) := rfl

theorem deinterleave (y : Coded) : Statement (.deinterleave y) := rfl

theorem bchdec (w : CodeWord) : Statement (.bchdec w) := rfl

theorem decode (y : Coded) : Statement (.decode y) := rfl

theorem idlechk (p : Payload) : Statement (.idlechk p) := rfl

end Sys2Proof.Laws.RequestCode
end

