-- ==== Sys2Proof/Tests/Slice0.lean ====
section
/-! SUPPORT. The model's own tests: ill-formed operands are refused, request words written out from 30_encoding.md decode, each
operation does on one small state what a vector or an example of the spec says, and a concrete state and operands meet the
hypotheses of each statement that has some. Expected values are the spec's: the place is named at each test. -/

set_option Elab.async false

namespace Sys2Proof.Tests

open Sys2Proof Sys2Proof.Machine Sys2Proof.Config

/-- A field of the next state, none when the operation stops. -/
def after {α : Type} (o : Host.Outcome State Fault Refusal) (f : State → α) : Option α :=
  match o with
  | .next t => some (f t)
  | .fault _ => none
  | .refused _ => none

/-- The state after reset with another demodulator state. -/
def withDem (f : Demod → Demod) : State := { State.reset with dem := f State.reset.dem }

/-- The state after reset with another clock. -/
def withClk (c : Nat) : State := { State.reset with clk := c }

/-- The state of program P2 (95_test_vectors.md) after the `SAMPLE` that locks, at `t = 3560`. -/
def lockedP2 : State := { withDem (fun d => { d with
    t := 3560, mode := .locked, bidx := 33, wfill := 10, thr := 8000, wait := 120, curLvl := 16000
    sr := 0x1C4B89712#33, nb := 33, hl := List.replicate 33 16000
    hw := (List.range 33).map (fun k => 1000 + 80 * (k : Int))
    origin := 2280, syncLevel := 16000 }) with clk := 2624, cfg := 0b100#3 }

/-- The state of program P2 just before `FRAMEDONE`, at `t = 15680`. -/
def lastBitP2 : State := { lockedP2 with
  dem := { lockedP2.dem with t := 15680, bidx := 184, fb := 0x1CF2C86A6907E1680E6FD574CD2800568139F0#150 }
  clk := 14744 }

/-- A locked state whose time origin lies so far back that every `SAMPLE` takes a frame bit. -/
def lateLocked : State := { lockedP2 with dem := { lockedP2.dem with origin := -20000, wait := -22160 } }

/-- Each request of the stream finds the block locked, and completes. -/
def lockedBeforeEach : List Req → State → Bool
  | [], _ => true
  | r :: rest, s => decide (s.dem.mode = .locked) &&
    match exec (decode r) s with
    | .next t => lockedBeforeEach rest t
    | .fault _ => false
    | .refused _ => false

/-- 151 samples. -/
def samples151 : List Req := List.replicate 151 0x3_0000000000000000#68

/-- A state with a request pending. -/
def pendingNop : State := State.reset.withFetchWord 72 0

/-! ### Well-formedness: each check refuses an ill-formed operand -/

theorem test_wf_winpush : (Instr.winpush 32768).wf refcfg = false ∧ (Instr.winpush (-32768)).wf refcfg = true := by
  decide +kernel

theorem test_wf_classifySlope_length : (Instr.classifySlope [1, 2, 3]).wf refcfg = false := by
  decide +kernel

theorem test_wf_classifySlope_sample : (Instr.classifySlope (List.replicate 10 40000)).wf refcfg = false := by
  decide +kernel

theorem test_wf_classifyZc : (Instr.classifyZc [1, 2, 3]).wf refcfg = false := by
  decide +kernel

theorem test_wf_accept_peak : (Instr.accept { found := true, peak := 10, pol := false, level := 1 } 0).wf refcfg = false := by
  decide +kernel

theorem test_wf_accept_absent : (Instr.accept { found := false, peak := 0, pol := true, level := 1 } 0).wf refcfg = false := by
  decide +kernel

theorem test_wf_unsyncStep_level : (Instr.unsyncStep true { found := true, peak := 5, pol := true, level := 65536 }).wf refcfg = false := by
  decide +kernel

theorem test_wf_lockedStep_peak : (Instr.lockedStep true { found := true, peak := 0, pol := true, level := 1 }).wf refcfg = false := by
  decide +kernel

theorem test_wf_bitout_level : (Instr.bitout true 65536 0).wf refcfg = false := by
  decide +kernel

/-! ### Decoding: the word of each request, its bits written out from the `encoding` of its row (opcode_table.json) -/

theorem test_decode_nop : decode 0b0000_0000000000000000_0000000000000000_0000000000000000_0000000000000000#68 = .nop := by
  decide +kernel

theorem test_decode_reset : decode 0b0001_0000000000000000_0000000000000000_0000000000000000_0000000000000000#68 = .reset := by
  decide +kernel

theorem test_decode_cfgwr : decode 0b0010_0000000000000000_0000000000000000_0000000000000000_0000000000000101#68 = .cfgwr 0b101#3 := by
  decide +kernel

theorem test_decode_sample : decode 0b0011_0000000000000000_0000000000000000_0000000000000000_1110001010110100#68 = .sample 0xE2B4#64 := by
  decide +kernel

theorem test_decode_sampleskip : decode 0b0100_0000000000000000_0000000000000000_0000000000000000_0000000000000000#68 = .sampleskip := by
  decide +kernel

theorem test_decode_txload : decode 0b0101_0000000100100011_0100010101100111_1000100110101011_1100110111101111#68 = .txload 0x0123456789ABCDEF#64 := by
  decide +kernel

theorem test_decode_clkload : decode 0b0110_0000000000000000_0000000000000000_0000000000000000_0011110111011000#68 = .clkload 0x3DD8#64 := by
  decide +kernel

theorem test_decode_reserved7 : decode 0b0111_0000000000000000_0000000000000000_0000000000000000_0000000000000000#68 = .reserved7 := by
  decide +kernel

theorem test_decode_reserved8 : decode 0b1000_0000000000000000_0000000000000000_0000000000000000_0000000000000000#68 = .reserved8 := by
  decide +kernel

theorem test_decode_reserved9 : decode 0b1001_0000000000000000_0000000000000000_0000000000000000_0000000000000000#68 = .reserved9 := by
  decide +kernel

theorem test_decode_reservedA : decode 0b1010_0000000000000000_0000000000000000_0000000000000000_0000000000000000#68 = .reservedA := by
  decide +kernel

theorem test_decode_reservedB : decode 0b1011_0000000000000000_0000000000000000_0000000000000000_0000000000000000#68 = .reservedB := by
  decide +kernel

theorem test_decode_reservedC : decode 0b1100_0000000000000000_0000000000000000_0000000000000000_0000000000000000#68 = .reservedC := by
  decide +kernel

theorem test_decode_reservedD : decode 0b1101_0000000000000000_0000000000000000_0000000000000000_0000000000000000#68 = .reservedD := by
  decide +kernel

theorem test_decode_reservedE : decode 0b1110_0000000000000000_0000000000000000_0000000000000000_0000000000000000#68 = .reservedE := by
  decide +kernel

theorem test_decode_reservedF : decode 0b1111_0000000000000000_0000000000000000_0000000000000000_0000000000000000#68 = .reservedF := by
  decide +kernel

/-- V-CTL-2. -/
theorem test_decode_ignored_bits : decode 0x1_123456789ABCDEF0#68 = .reset ∧ decode 0x2_FFFFFFFFFFFFFFF8#68 = .cfgwr 0b000#3 := by
  decide +kernel

/-- 30_encoding.md R75. -/
theorem test_decode_internal_has_no_word : encode .lock = none ∧ encode (.bchenc 0#7) = none := by
  decide +kernel

theorem test_decode_rejects_wide : decodeTableWord 72 (2 ^ 68) = none ∧ decodeTableWord 72 (2 ^ 64) = some .reset := by
  decide +kernel

theorem test_step_runs_fetched_word : after (step (State.reset.withFetchWord 72 0x20000000000000005)) (·.cfg) = some 0b101#3 := by
  decide +kernel

/-- V-CTL-1. -/
theorem test_trace_words : traceWords refcfg [.cfgwr true true true, .sample (-7500), .clkload 15832] = [0x2_0000000000000007#68, 0x3_000000000000E2B4#68, 0x6_0000000000003DD8#68] := by
  decide +kernel

/-! ### Control -/

/-- 44_control.md R202. -/
theorem test_nop : after (exec .nop { withClk 24 with out := [.txbit true] }) (fun t => (t.clk, t.out)) = some (24, []) := by
  decide +kernel

/-- R200, its example. -/
theorem test_reset : after (exec .reset { withDem (fun d => { d with thr := 5, wait := 7 }) with flags := 3#2 }) (fun t => (t.dem.thr, t.dem.wait, t.flags)) = some (1000, 120, 0#2) := by
  decide +kernel

/-- R201, its example. -/
theorem test_cfgwr : after (exec (.cfgwr 0b101#3) State.reset) (fun t => (dtypeZc t.cfg, inv t.cfg, corrEn t.cfg)) = some (true, false, true) := by
  decide +kernel

/-- V-CTL-3. -/
theorem test_reserved7 : after (exec .reserved7 State.reset) (·.flags) = some 0b10#2 := by
  decide +kernel

theorem test_reserved8 : after (exec .reserved8 State.reset) (·.flags) = some 0b10#2 := by
  decide +kernel

theorem test_reserved9 : after (exec .reserved9 State.reset) (·.flags) = some 0b10#2 := by
  decide +kernel

theorem test_reservedA : after (exec .reservedA State.reset) (·.flags) = some 0b10#2 := by
  decide +kernel

theorem test_reservedB : after (exec .reservedB State.reset) (·.flags) = some 0b10#2 := by
  decide +kernel

theorem test_reservedC : after (exec .reservedC State.reset) (·.flags) = some 0b10#2 := by
  decide +kernel

theorem test_reservedD : after (exec .reservedD State.reset) (·.flags) = some 0b10#2 := by
  decide +kernel

theorem test_reservedE : after (exec .reservedE State.reset) (·.flags) = some 0b10#2 := by
  decide +kernel

theorem test_reservedF : after (exec .reservedF State.reset) (·.flags) = some 0b10#2 := by
  decide +kernel

/-! ### Clock -/

/-- V-CLK-4. -/
theorem test_clkload : after (exec (.clkload 1013784#64) State.reset) (·.clk) = some 24 := by
  decide +kernel

/-- V-CLK-4. -/
theorem test_clkload_reduces : after (exec (.clkload 0xFFFFFFFFFFFFFFFF#64) State.reset) (·.clk) = some 894975 := by
  decide +kernel

/-- V-CLK-1. -/
theorem test_clktick_wraps : after (exec .clktick (withClk 1013752)) (·.clk) = some 0 := by
  decide +kernel

/-- V-CLK-1. -/
theorem test_clktick_no_boundary : after (exec .clktick { withClk 80 with tx := { State.reset.tx with act := true } }) (fun t => (t.clk, t.out)) = some (88, []) := by
  decide +kernel

/-- V-CLK-2. -/
theorem test_syncerr : after (exec (.syncerr 2280) { lastBitP2 with clk := 100 }) (·.ret) = some (.ticks 1220) := by
  decide +kernel

/-- V-CLK-2. -/
theorem test_syncerr_half_period : after (exec (.syncerr 2280) { lastBitP2 with clk := 22640 }) (·.ret) = some (.ticks (-7920)) := by
  decide +kernel

/-- V-CLK-3. -/
theorem test_clkcorr_halves : after (exec (.clkcorr (-3)) (withClk 14717)) (·.clk) = some 14718 := by
  decide +kernel

/-- V-CLK-3. -/
theorem test_clkcorr_wraps : after (exec (.clkcorr 1220) (withClk 100)) (·.clk) = some 1012640 := by
  decide +kernel

/-! ### Framer -/

/-- V-FRM-1. -/
theorem test_syncdet_two : after (exec (.syncdet 0b011000100101110001001011100010011#33) State.reset) (·.ret) = some (.bool true) := by
  decide +kernel

/-- V-FRM-1. -/
theorem test_syncdet_three : after (exec (.syncdet 0b011000100100110001001011100010011#33) State.reset) (·.ret) = some (.bool false) := by
  decide +kernel

/-- V-FRM-2. -/
theorem test_frame : after (exec (.frame 0#150) State.reset) (·.ret) = some (.frame 0xE25C4B8900000000000000000000000000000000000000#184) := by
  decide +kernel

/-- 41_framer.md R134, its example. -/
theorem test_txload : after (exec (.txload 0x8000000000000000#64) State.reset) (fun t => (t.tx.txn, t.tx.pend)) = some (0xE25C4B8920000000000000000080200800008000000000#184, true) := by
  decide +kernel

/-- R134. -/
theorem test_txload_overrun : after (exec (.txload 0#64) { State.reset with tx := { State.reset.tx with pend := true, txn := 1#184 } }) (fun t => (t.tx.txn, t.flags)) = some (1#184, 0b01#2) := by
  decide +kernel

/-- R135, its example. -/
theorem test_txbit_starts : after (exec .txbit { withClk 15840 with tx := { State.reset.tx with pend := true, txn := BitVec.allOnes 184 } }) (fun t => (t.out, t.tx.idx, t.tx.pend, t.tx.act)) = some ([.txbit true], 1, false, true) := by
  decide +kernel

/-- R135. -/
theorem test_txbit_last : after (exec .txbit { withClk 80 with tx := { State.reset.tx with act := true, idx := 183, txf := 1#184 } }) (fun t => (t.out, t.tx.idx, t.tx.act)) = some ([.txbit true], 184, false) := by
  decide +kernel

/-! ### Codec -/

/-- 42_codec.md R151. -/
theorem test_pad : after (exec (.pad (.pad 0x0123456789ABCDEF#64)) State.reset) (·.ret) = some (.info (0x0123456789ABCDEF#64 ++ 0b000000#6)) := by
  decide +kernel

/-- R151. -/
theorem test_unpad : after (exec (.pad (.unpad 0b1000001#70)) State.reset) (·.ret) = some (.unpadded 1#64 0b000001#6) := by
  decide +kernel

/-- V-COD-1. -/
theorem test_bchenc : after (exec (.bchenc 0b1001000#7) State.reset) (·.ret) = some (.word 0x48F5#15) := by
  decide +kernel

/-- V-COD-1. -/
theorem test_bchenc_mixed : after (exec (.bchenc 0b1010101#7) State.reset) (·.ret) = some (.word 0x55E5#15) := by
  decide +kernel

/-- V-COD-3: a single 1 at index 73. -/
theorem test_interleave : after (exec (.interleave (#v[0, 0, 0, 0b000000010000000, 0, 0, 0, 0, 0, 0])) State.reset) (·.ret) = some (.coded (BitVec.twoPow 150 76)) := by
  decide +kernel

/-- 42_codec.md R157, its example. -/
theorem test_deinterleave : after (exec (.deinterleave (BitVec.twoPow 150 76)) State.reset) (·.ret) = some (.words (#v[0, 0, 0, 0b000000010000000, 0, 0, 0, 0, 0, 0])) := by
  decide +kernel

/-- V-COD-4. -/
theorem test_encode : after (exec (.encode 0x0123456789ABCDEF#64) State.reset) (·.ret) = some (.coded 0x1CF2C86A6907E1680E6FD574CD2800568139F0#150) := by
  decide +kernel

/-- V-COD-5. -/
theorem test_bchdec_two : after (exec (.bchdec 0b000100011110100#15) State.reset) (·.ret) = some (.wordResult (some (0b1001000#7, 2))) := by
  decide +kernel

/-- V-COD-5. -/
theorem test_bchdec_fail : after (exec (.bchdec 0b110001000000000#15) State.reset) (·.ret) = some (.wordResult none) := by
  decide +kernel

/-- V-COD-6. -/
theorem test_decode_corrects : after (exec (.decode (flipBit (flipBit (flipBit 0x1CF2C86A6907E1680E6FD574CD2800568139F0#150 1) 11) 5)) State.reset) (·.ret) = some (.telegram (some { info := 0x0123456789ABCDEF#64 ++ 0b000000#6, eflag := [0, 2, 0, 0, 0, 1, 0, 0, 0, 0] })) := by
  decide +kernel

/-- V-COD-8. -/
theorem test_decode_wrong_data : after (exec (.decode (flipBit (flipBit (flipBit 0x1CF2C86A6907E1680E6FD574CD2800568139F0#150 0) 10) 20)) State.reset) (·.ret) = some (.telegram (some { info := 0xE923456789ABCDEF#64 ++ 0b000000#6, eflag := [2, 0, 0, 0, 0, 0, 0, 0, 0, 0] })) := by
  decide +kernel

/-- V-COD-10. -/
theorem test_idlechk : after (exec (.idlechk 0xFFFFFFFFFFFFFFFF#64) State.reset) (·.ret) = some (.bool true) := by
  decide +kernel

/-- V-COD-10. -/
theorem test_idlechk_not : after (exec (.idlechk 0xFFFFFFFFFFFFFFFE#64) State.reset) (·.ret) = some (.bool false) := by
  decide +kernel

/-! ### Demodulator -/

/-- 40_demod.md R94, its example. -/
theorem test_winpush : after (exec (.winpush 9) { withDem (fun d => { d with win := [1, 2, 3, 4], wfill := 4 }) with K := { refcfg with w := 4 } }) (·.dem.win) = some [2, 3, 4, 9] := by
  decide +kernel

/-- V-DEM-1. -/
theorem test_classifySlope_tie : after (exec (.classifySlope [-8000, -8000, -8000, -6000, -2000, 2000, 6000, 8000, 8000, 8000]) State.reset) (·.ret) = some (.change { found := true, peak := 4, pol := true, level := 16000 }) := by
  decide +kernel

/-- V-DEM-1. -/
theorem test_classifySlope_falling : after (exec (.classifySlope [8000, 8000, 8000, 8000, 8000, -8000, -8000, -8000, -8000, -8000]) State.reset) (·.ret) = some (.change { found := true, peak := 5, pol := false, level := 16000 }) := by
  decide +kernel

/-- V-DEM-1. -/
theorem test_classifyZc_three_crossings : after (exec (.classifyZc [-50, 50, -50, -50, -8000, 8000, 8000, 8000, 8000, 8000]) State.reset) (·.ret) = some (.change { found := true, peak := 5, pol := true, level := 16000 }) := by
  decide +kernel

/-- V-DEM-1. -/
theorem test_classifyZc_no_sign_change : after (exec (.classifyZc [1000, 1000, 1000, 1000, 1000, 17000, 17000, 17000, 17000, 17000]) State.reset) (·.ret) = some (.change { found := false, peak := 0, pol := false, level := 16000 }) := by
  decide +kernel

/-- V-DEM-2. -/
theorem test_accept_equal : after (exec (.accept { found := true, peak := 5, pol := true, level := 1000 } 1000) State.reset) (·.ret) = some (.bool false) := by
  decide +kernel

/-- V-DEM-2. -/
theorem test_accept_above : after (exec (.accept { found := true, peak := 5, pol := true, level := 1001 } 1000) State.reset) (·.ret) = some (.bool true) := by
  decide +kernel

/-- V-DEM-3. -/
theorem test_threshold_law : thrNext refcfg 7996 .repeated = 7747 ∧ thrNext refcfg 1000 (.accepted 16000) = 4500 := by
  decide +kernel

/-- V-DEM-5, first row, and 40_demod.md R101. -/
theorem test_unsyncStep_accepted : after (exec (.unsyncStep true { found := true, peak := 5, pol := true, level := 16000 }) (withDem fun d => { d with t := 120, wait := 0 })) (fun t => (t.out, t.dem.thr, t.dem.wait, t.dem.hw[32]?)) = some ([.rawbit true 16000], 4500, 120, some 120) := by
  decide +kernel

/-- V-DEM-5, row R 1040. -/
theorem test_unsyncStep_expired : after (exec (.unsyncStep false { found := false, peak := 0, pol := false, level := 0 }) (withDem fun d => { d with t := 1040, wait := 0, thr := 7996, curBit := true, curLvl := 16000 })) (fun t => (t.out, t.dem.thr, t.dem.wait, t.dem.hw[32]?)) = some ([.rawbit true 16000], 7747, 80, some 1000) := by
  decide +kernel

/-- 40_demod.md R103, its example; V-DEM-6 (a). -/
theorem test_bitout_locks : after (exec (.bitout false 16000 3560) (withDem fun d => { d with nb := 32, sr := 0x0E25C4B89#33, hl := List.replicate 33 16000, hw := (List.range 33).map (fun k => 920 + 80 * (k : Int)), t := 3560 })) (fun t => (t.dem.sr, t.dem.nb, t.dem.mode, t.dem.origin)) = some (0x1C4B89712#33, 33, .locked, 2280) := by
  decide +kernel

/-- R103. -/
theorem test_bitout_needs_33_bits : after (exec (.bitout false 16000 3560) (withDem fun d => { d with nb := 31, sr := 0x0E25C4B89#33 })) (fun t => (t.dem.nb, t.dem.mode)) = some (32, .unsync) := by
  decide +kernel

/-- V-DEM-6 (b). -/
theorem test_lock_jitter : after (exec .lock (withDem fun d => { d with t := 3560, hl := 15000 :: List.replicate 32 16000, hw := (((List.range 33).map (fun k => 1000 + 80 * (k : Int))).set 3 1248).set 20 2584 })) (fun t => (t.dem.origin, t.dem.syncLevel, t.dem.jit, t.dem.thr, t.dem.wait)) = some (2279, 15969, 15, 7984, 119) := by
  decide +kernel

/-- 40_demod.md R106. -/
theorem test_lockedStep_tracks_then_samples : after (exec (.lockedStep true { found := true, peak := 5, pol := true, level := 9000 }) { lockedP2 with dem := { lockedP2.dem with wait := 0 } }) (fun t => (t.out, t.dem.wait, t.dem.rxMarker, t.dem.bidx)) = some ([.rawbit true 9000], 80, true, 34) := by
  decide +kernel

/-- R107, its example. -/
theorem test_framebit : after (exec (.framebit true) { lockedP2 with dem := { lockedP2.dem with bidx := 34 } }) (fun t => (bitAt t.dem.fb 0, bitAt t.dem.fb 1, t.dem.bidx)) = some (true, false, 35) := by
  decide +kernel

/-- Program P2. -/
theorem test_framedone_accepts : after (exec .framedone lastBitP2) (fun t => (t.rx.payload, t.rx.syncerr, t.clk, t.stat, t.out.length)) = some (0x0123456789ABCDEF#64, 24, 14732, .ok, 1) := by
  decide +kernel

/-- Program P4. -/
theorem test_framedone_uncorrectable : after (exec .framedone { lastBitP2 with dem := { lastBitP2.dem with fb := flipBit (flipBit (flipBit lastBitP2.dem.fb 0) 10) 50 } }) (fun t => (t.stat, t.clk, t.out, t.dem.mode)) = some (.uncorrectable, 14744, [], .unsync) := by
  decide +kernel

/-- R91, its example, and R101. -/
theorem test_sample_accepts : after (exec (.sample 8500#64) (withDem fun d => { d with t := 112, wait := 8, wfill := 10, win := [-7500, -7500, -7500, -7500, -7500, -7500, 8500, 8500, 8500, 8500] })) (fun t => (t.out, t.dem.t, t.dem.wait)) = some ([.rawbit true 16000], 120, 120) := by
  decide +kernel

/-- R91. -/
theorem test_sample_window_not_full : after (exec (.sample 8500#64) (withDem fun d => { d with wfill := 8, win := [-7500, -7500, -7500, -7500, -7500, -7500, 8500, 8500, 8500, 8500] })) (fun t => (t.out, t.dem.wait, t.dem.curBit)) = some ([], 112, false) := by
  decide +kernel

/-- R92, its example. -/
theorem test_sampleskip : after (exec .sampleskip { withDem (fun d => { d with t := 800 }) with clk := 72, tx := { State.reset.tx with act := true } }) (fun t => (t.clk, t.dem.t, t.dem.skipseen, t.out)) = some (80, 800, true, [.txbit false]) := by
  decide +kernel

/-! ### Concrete states and operands that meet the hypotheses of the statements -/

theorem refcfg_admissible : Admissible refcfg :=
  { sw_ge := by decide, w_ge := by decide, w_round := by decide, tps_pos := by decide, bitT_even := by decide
    bitT_ge := by decide, phaseT_lt := by decide, lockDen_pos := by decide, slotT_pos := by decide, slotT_mult := by decide
    rxperT_mult := by decide, rxperT_ge := by decide, originT_lt := by decide, distance := by decide +kernel }

/-- A running, unsynchronized state that meets the invariant, with a request pending. -/
theorem witness_inv_pending : Inv pendingNop :=
  { admissible := refcfg_admissible, win_range := by decide, wfill_le := by decide, nb_le := by decide
    hl_length := by decide, hw_length := by decide, hl_lt := by decide, hw_le := by decide, curLvl_lt := by decide
    syncLevel_lt := by decide, bidx_unsync := by decide, bidx_locked := by decide, nb_locked := by decide
    locked_instant := by decide, wait_range := by decide, clk_lt := by decide, txidx_range := by decide
    txn_frame := fun h => by cases h
    txf_frame := fun h => by cases h
    eflag_range := by decide, errcnt_eq := by decide, opcode_eq := by decide +kernel, syncerr_range := by decide
    stat_ok := by decide, not_idle := by decide }

/-- A locked state that meets the invariant. -/
theorem witness_inv_locked : Inv lockedP2 :=
  { admissible := refcfg_admissible, win_range := by decide, wfill_le := by decide, nb_le := by decide
    hl_length := by decide, hw_length := by decide, hl_lt := by decide, hw_le := by decide, curLvl_lt := by decide
    syncLevel_lt := by decide, bidx_unsync := by decide, bidx_locked := by decide, nb_locked := by decide
    locked_instant := by decide, wait_range := by decide, clk_lt := by decide, txidx_range := by decide
    txn_frame := fun h => by cases h
    txf_frame := fun h => by cases h
    eflag_range := by decide, errcnt_eq := by decide, opcode_eq := by decide +kernel, syncerr_range := by decide
    stat_ok := by decide, not_idle := by decide }

theorem witness_decodeInvertsEncode : encode (.cfgwr 0b101#3) = some 0x2_0000000000000005#68 := by
  decide +kernel

theorem witness_sampleOperandIsTwosComplement : 1 ≤ refcfg.sw ∧ refcfg.sw ≤ 64 := by
  decide +kernel

theorem witness_stepPerformsNextRequest : pendingNop.reqs = 0#68 :: [] ∧ State.reset.reqs = [] := by
  decide +kernel

theorem witness_stepKeepsInvariant : Inv pendingNop ∧ ∃ t, step pendingNop = .next t := ⟨witness_inv_pending, _, rfl⟩

theorem witness_configurationAndTimeHaveTheirWriters : (∃ t, exec (.sample 5#64) State.reset = .next t) ∧ (∃ t, exec .reset State.reset = .next t)
    ∧ (∃ t, exec .txbit State.reset = .next t) ∧ movesClock .txbit = false := ⟨⟨_, rfl⟩, ⟨_, rfl⟩, ⟨_, rfl⟩, rfl⟩

theorem witness_reservedCodesOnlySetReqErr : Instr.reserved7 ∈ reservedOps ∧ Instr.reservedF ∈ reservedOps
    ∧ 7 ≤ ((0x7_0000000000000000#68).extractLsb' 64 4).toNat ∧ 7 ≤ ((0xF_0000000000000000#68).extractLsb' 64 4).toNat := by
  decide +kernel

theorem witness_flagsAreStickyAndExact : (∃ t, exec .reserved7 State.reset = .next t)
    ∧ ∃ t, exec (.txload 0#64) { State.reset with tx := { State.reset.tx with pend := true } } = .next t := ⟨⟨_, rfl⟩, ⟨_, rfl⟩⟩

theorem witness_clktickAdvancesClock : Admissible (withClk 72).K ∧ (withClk 72).clk < superT (withClk 72).K ∧ (withClk 1013759).clk < superT (withClk 1013759).K := ⟨refcfg_admissible, by decide, by decide⟩

theorem witness_clktickAdvancesClock_branches : after (exec .clktick (withClk 72)) (fun t => decide (t.clk / 80 ≠ 72 / 80)) = some true
    ∧ after (exec .clktick (withClk 80)) (fun t => decide (t.clk / 80 = 80 / 80)) = some true := by
  decide +kernel

theorem witness_syncerrAndResidual : Admissible lastBitP2.K := refcfg_admissible

theorem witness_clkcorrSnapsOrHalves : 0 < State.reset.K.slotT := by
  decide +kernel

theorem witness_repeatedCorrectionConverges : (refcfg.bitT : Int) < 2 * |(41 : Int)| := by
  decide +kernel

theorem witness_copiedClockStaysEqual : (withClk 72).clk < 2 ^ 64 ∧ (withClk 72).clk < superT (withClk 72).K ∧ State.reset.K.slotT = (withClk 72).K.slotT
    ∧ State.reset.K.tps = (withClk 72).K.tps ∧ corrEn (withClk 72).cfg = false ∧ corrEn State.reset.cfg = false
    ∧ opOf 0x3_0000000000000000#68 = 0x3#4 ∧ opOf 0x4_0000000000000000#68 = 0x4#4 := by
  refine ⟨?_, by decide, rfl, rfl, rfl, rfl, by decide, by decide⟩
  show 72 < 2 ^ 64
  norm_num

theorem witness_txloadQueuesOrDrops : ({ State.reset.tx with pend := true } : Transmit).pend = true ∧ State.reset.tx.pend = false := by
  decide +kernel

theorem witness_txbitStartsSendsOrIdles : (∃ s : State, s.tx.pend = true ∧ s.tx.act = false ∧ s.clk % s.K.rxperT / s.K.bitT = s.K.txoffBits)
    ∧ (∃ s : State, s.tx.act = true ∧ s.tx.idx = 183)
    ∧ ∃ s : State, s.tx.act = false ∧ ¬(s.tx.pend = true ∧ s.clk % s.K.rxperT / s.K.bitT = s.K.txoffBits) := ⟨⟨{ withClk 15840 with tx := { State.reset.tx with pend := true } }, by decide +kernel⟩,
    ⟨{ State.reset with tx := { State.reset.tx with act := true, idx := 183 } }, by decide +kernel⟩,
    ⟨State.reset, by decide +kernel⟩⟩

theorem witness_pendingFrameGoesOutWhole : (∃ s : State, s.tx.pend = true ∧ s.tx.act = false ∧ 15840 % s.K.rxperT / s.K.bitT = s.K.txoffBits)
    ∧ (List.replicate 183 15920).length = 183 := ⟨⟨{ State.reset with tx := { State.reset.tx with pend := true } }, by decide +kernel⟩, List.length_replicate⟩

theorem witness_nearestCodeWordIsUnique : minDistanceFive refcfg = true := by
  decide +kernel

theorem witness_nearestCodeWordIsUnique_words : ham 0b000000000000011#15 (bchEnc refcfg 0#7) = 2 ∧ bchDec refcfg 0b110001000000000#15 = none := by
  decide +kernel

theorem witness_twoErrorsInEachWordAreCorrected : minDistanceFive refcfg = true ∧ ((List.range 10).all fun g => decide (((List.range 15).countP fun c =>
    bitAt (encodeTelegram refcfg 0#64 ^^^ BitVec.twoPow 150 76) (10 * c + g) != bitAt (encodeTelegram refcfg 0#64) (10 * c + g)) ≤ 2)) = true := by
  decide +kernel

theorem witness_burstOfTwentyIsCorrected : ∃ y : Coded, y ≠ encodeTelegram refcfg 0#64
    ∧ ∀ n, n < 150 → n < 40 ∨ 40 + 20 ≤ n → bitAt y n = bitAt (encodeTelegram refcfg 0#64) n := ⟨0xFFFFF#150 <<< 90, by decide +kernel, by decide +kernel⟩

theorem witness_threeErrorsNeverReturnSentData : 3 ≤ ham 0b111000000000000#15 (bchEnc refcfg 0#7)
    ∧ bchDec refcfg 0b111000000000000#15 = some (0b1110100#7, 2)
    ∧ ham 0b111000000000000#15 (bchEnc refcfg 0#7) = 3 ∧ ham 0b111010000000000#15 (bchEnc refcfg 0#7) = 4 := by
  decide +kernel

theorem witness_winpushShiftsTheWindow : State.reset.dem.win.length = State.reset.K.w ∧ 1 ≤ State.reset.K.w := by
  decide +kernel

theorem witness_classifiers : 2 ≤ ([-1, 1] : List Int).length ∧ 2 ≤ (List.replicate 10 (0 : Int)).length
    ∧ (classifySlope [-1, 1]).found = true ∧ (classifySlope [1, 1]).found = false
    ∧ (classifyZc [-1, 1]).found = true ∧ (classifyZc [1, 2]).found = false := by
  decide +kernel

theorem witness_unsyncStepTransitionBeforeExpiry : (withDem fun d => { d with wait := 0 }).dem.wait ≤ 0 ∧ 0 < (withDem fun d => { d with wait := 1 }).dem.wait := by
  decide +kernel

theorem witness_bitoutShiftsHistoryAndLocks : 33 ≤ (withDem fun d => { d with nb := 32 }).dem.nb + 1 ∧ ham 0x1C4B89712#33 (sync33 refcfg) ≤ 2
    ∧ ¬(33 ≤ State.reset.dem.nb + 1 ∧ ham (0#33) (sync33 refcfg) ≤ 2) := by
  decide +kernel

theorem witness_lockMeasuresTheSyncBits : lockedP2.dem.hw.length = 33 ∧ lockedP2.dem.hl.length = 33 := by
  decide +kernel

theorem witness_lockedStepTracksThenSamples : 0 < lockedP2.dem.wait ∧ ({ lockedP2.dem with wait := 0 } : Demod).wait ≤ 0 := by
  decide +kernel

theorem witness_framebitStoresMarkerAndCodedBits : 33 ≤ lockedP2.dem.bidx ∧ lockedP2.dem.bidx ≤ 183
    ∧ (withDem fun d => { d with bidx := 34 }).dem.bidx = 34 ∧ (withDem fun d => { d with bidx := 183 }).dem.bidx = 183 := by
  decide +kernel

theorem witness_framedoneRejectsDiscardsOrAccepts : decodeTelegram refcfg (flipBit (flipBit (flipBit 0#150 0) 10) 50) = none
    ∧ (decodeTelegram refcfg 0#150).map (fun g => unpadPayload g.info) = some 0#64
    ∧ (decodeTelegram lastBitP2.K lastBitP2.dem.fb).map (fun g => unpadPayload g.info) = some 0x0123456789ABCDEF#64
    ∧ lastBitP2.cfg.getLsbD 2 = true ∧ lastBitP2.dem.skipseen = false := by
  decide +kernel

theorem witness_sampleRunsItsPhasesInOrder : State.reset.dem.mode = .unsync ∧ lockedP2.dem.mode = .locked := by
  decide +kernel

theorem witness_sequencerTransitionsAreExactlyThese : Inv lockedP2 ∧ ∃ t, exec (decode 0x3_0000000000000000#68) lockedP2 = .next t := ⟨witness_inv_locked, _, rfl⟩

theorem witness_lockedFrameTakes151Bits : Inv lockedP2 ∧ lockedP2.dem.mode = .locked ∧ lockedP2.dem.bidx = 33
    ∧ (∀ r ∈ ([0x3_0000000000000000#68] : List Req), decode r ≠ .reset)
    ∧ (∃ t ev, perform [0x3_0000000000000000#68] lockedP2 = some (t, ev))
    ∧ ∀ k, k < ([0x3_0000000000000000#68] : List Req).length →
        ∃ u, perform (([0x3_0000000000000000#68] : List Req).take k) lockedP2 = some u ∧ u.1.dem.mode = .locked := by
  refine ⟨witness_inv_locked, rfl, rfl, fun r hr => ?_, ?_, fun k hk => ?_⟩
  · rw [List.mem_singleton.mp hr]
    decide +kernel
  · have h : exec (decode 0x3_0000000000000000#68) lockedP2 = .next (takeSample (sampleOperand lockedP2.K 0#64) (beginRequest lockedP2)) := by
      rw [show decode 0x3_0000000000000000#68 = .sample 0#64 by decide +kernel]
      exact (fun _ _ => rfl : ∀ x s, exec (.sample x) s = .next (takeSample (sampleOperand s.K x) (beginRequest s))) 0#64 lockedP2
    exact ⟨_, _, perform_one h⟩
  · have h0 : k = 0 := by simpa using hk
    subst h0
    exact ⟨(lockedP2, []), rfl, rfl⟩

theorem lockedBeforeEach_take {rs : List Req} {s : State} (h : lockedBeforeEach rs s = true) {k : Nat} (hk : k < rs.length) :
    ∃ u, perform (rs.take k) s = some u ∧ u.1.dem.mode = .locked := by
  induction rs generalizing s k with
  | nil => exact absurd hk (Nat.not_lt_zero k)
  | cons r rest ih =>
    simp only [lockedBeforeEach, Bool.and_eq_true, decide_eq_true_eq] at h
    cases k with
    | zero => exact ⟨(s, []), rfl, h.1⟩
    | succ k =>
      cases he : exec (decode r) s with
      | next t =>
        rw [he] at h
        obtain ⟨u, hu, hm⟩ := ih h.2 (Nat.lt_of_succ_lt_succ hk)
        exact ⟨(u.1, t.out ++ u.2), by rw [List.take_succ_cons, perform_cons he, hu]; rfl, hm⟩
      | fault f => cases f
      | refused f => rw [he] at h; exact absurd h.2 Bool.false_ne_true

/-- A locked state that meets the invariant, with the wait long expired. -/
theorem witness_inv_lateLocked : Inv lateLocked :=
  { witness_inv_locked with locked_instant := by decide, wait_range := by decide }

theorem witness_lockedFrameTakes151Bits_end : Inv lateLocked ∧ lateLocked.dem.mode = .locked ∧ lateLocked.dem.bidx = 33
    ∧ (∀ r ∈ samples151, decode r ≠ .reset)
    ∧ (∀ k, k < samples151.length → ∃ u, perform (samples151.take k) lateLocked = some u ∧ u.1.dem.mode = .locked)
    ∧ (perform samples151 lateLocked).map (fun q => (q.1.dem.mode, q.1.dem.bidx, q.2.countP isRawbit)) = some (.unsync, 184, 151) := by
  refine ⟨witness_inv_lateLocked, rfl, rfl, fun r hr => ?_, fun k hk => lockedBeforeEach_take ?_ hk, ?_⟩
  · rw [List.eq_of_mem_replicate hr]
    decide +kernel
  · decide +kernel
  · decide +kernel

theorem witness_lockedTimingIgnoresTheSignal : lockedP2.dem.mode = .locked ∧ 0 < lockedP2.dem.wait - (lockedP2.K.tps : Int)
    ∧ ({ lockedP2.dem with wait := 8, bidx := 183 } : Demod).wait - (lockedP2.K.tps : Int) ≤ 0 := by
  decide +kernel

theorem witness_receptionIgnoresTransmission : SameReceive State.reset { State.reset with flags := 3#2, tx := { State.reset.tx with act := true } } := ⟨rfl, rfl, rfl, rfl, rfl, rfl⟩

theorem witness_resultsChangeOnlyOnAcceptance : (∃ t, exec (decode 0x0_0000000000000000#68) State.reset = .next t) ∧ decode 0x0_0000000000000000#68 ≠ .reset := ⟨⟨_, rfl⟩, by decide⟩

end Sys2Proof.Tests
end

section
/-! PROOFS. What an operation that answers a next state can have done: one constructor per operation that changes the state,
one for all reserved codes and one for all internal functions that only return a value. Proofs about every operation go
through these two relations and do not open the dispatch again. -/

namespace Sys2Proof.Machine

/-- The effect of a request (44_control.md R204). -/
inductive RequestStep : Instr → State → State → Prop where
  | nop (s : State) : RequestStep .nop s (beginRequest s)
  | reset (s : State) : RequestStep .reset s { State.resetWith s.K with reqs := s.reqs }
  | cfgwr (c : BitVec 3) (s : State) : RequestStep (.cfgwr c) s { beginRequest s with cfg := c }
  | sample (arg : Arg) (s : State) :
      RequestStep (.sample arg) s (takeSample (sampleOperand s.K arg) (beginRequest s))
  | sampleskip (s : State) : RequestStep .sampleskip s (skipSample (beginRequest s))
  | txload (p : Payload) (s : State) : RequestStep (.txload p) s (txLoad p (beginRequest s))
  | clkload (arg : Arg) (s : State) :
      RequestStep (.clkload arg) s (clkLoad (clockOperand s.K arg) (beginRequest s))
  | reserved {i : Instr} (hi : i ∈ reservedOps) (s : State) : RequestStep i s (reservedRequest s)

/-- The effect of an internal operation (30_encoding.md R75). -/
inductive InternalStep : Instr → State → State → Prop where
  | clktick (s : State) : InternalStep .clktick s (clkTick s)
  | txbit (s : State) : InternalStep .txbit s (txBoundary s)
  | winpush (x : Int) (s : State) : InternalStep (.winpush x) s (winPush x s)
  | unsyncStep (acc : Bool) (c : Change) (s : State) : InternalStep (.unsyncStep acc c) s (unsyncStep acc c s)
  | bitout (b : Bool) (l : Nat) (a : Int) (s : State) : InternalStep (.bitout b l a) s (bitOut b l a s)
  | lock (s : State) : InternalStep .lock s (lock s)
  | lockedStep (acc : Bool) (c : Change) (s : State) : InternalStep (.lockedStep acc c) s (lockedStep acc c s)
  | framebit (b : Bool) (s : State) : InternalStep (.framebit b) s (frameBit b s)
  | framedone (s : State) : InternalStep .framedone s (frameDone s)
  | clkcorr (e : Int) (s : State) : InternalStep (.clkcorr e) s (clkCorr e s)
  | function {i : Instr} (hi : encode i = none) (v : Value) (s : State) : InternalStep i s (returns v s)

/-- An operation that answers a next state is a request or an internal operation, with its effect. -/
theorem exec_cases {i : Instr} {s t : State} (h : exec i s = .next t) : RequestStep i s t ∨ InternalStep i s t := by
  cases i with
  | pad f => cases f <;> (cases h; exact .inr (.function rfl _ s))
  | reserved7 | reserved8 | reserved9 | reservedA | reservedB | reservedC | reservedD | reservedE | reservedF =>
    cases h; exact .inl (.reserved (by simp [reservedOps]) s)
  | nop | reset | cfgwr | sample | sampleskip | txload | clkload => cases h; left; constructor
  | classifySlope | classifyZc | accept | syncdet | syncerr | bchenc | interleave | encode | frame | deinterleave
  | bchdec | decode | idlechk => cases h; exact .inr (.function rfl _ s)
  | clktick | txbit | winpush | unsyncStep | bitout | lock | lockedStep | framebit | framedone | clkcorr =>
    cases h; right; constructor

/-- An internal operation has no encoding (R75). -/
theorem InternalStep.encode_eq_none {i : Instr} {s t : State} (h : InternalStep i s t) : encode i = none := by
  cases h with
  | function hi => exact hi
  | _ => rfl

/-- What a request word decodes to has an encoding (R70). -/
theorem encode_decode_ne_none (r : Req) : encode (decode r) ≠ none := by
  unfold decode; split <;> exact Option.some_ne_none _

/-- A decoded request has the effect of a request. -/
theorem requestStep_of_exec_decode {r : Req} {s t : State} (h : exec (decode r) s = .next t) :
    RequestStep (decode r) s t :=
  (exec_cases h).resolve_right fun hi => encode_decode_ne_none r hi.encode_eq_none

/-- A reserved code has an encoding, and is no other request. -/
theorem encode_ne_none_of_mem_reservedOps {i : Instr} (h : i ∈ reservedOps) : encode i ≠ none := by
  simp only [reservedOps, List.mem_cons, List.not_mem_nil, or_false] at h
  rcases h with rfl | rfl | rfl | rfl | rfl | rfl | rfl | rfl | rfl <;> exact Option.some_ne_none _

theorem ne_of_mem_reservedOps {i j : Instr} (h : i ∈ reservedOps) (hj : j ∉ reservedOps) : i ≠ j :=
  fun e => hj (e ▸ h)

theorem reset_not_mem_reservedOps : Instr.reset ∉ reservedOps := by simp [reservedOps]
theorem sample_not_mem_reservedOps (arg : Arg) : Instr.sample arg ∉ reservedOps := by simp [reservedOps]
theorem txload_not_mem_reservedOps (p : Payload) : Instr.txload p ∉ reservedOps := by simp [reservedOps]

/-- A step performs the next request pending, or there is none and nothing changes (log entry 3). -/
theorem step_cases {s t : State} (h : step s = .next t) :
    t = s ∨ ∃ (r : Req) (rest : List Req), s.reqs = r :: rest ∧ RequestStep (decode r) { s with reqs := rest } t := by
  unfold step takeRequest at h
  split at h
  · cases h; exact .inl rfl
  · rename_i r s' hs
    split at hs
    · cases hs
    · rename_i rest hreqs
      cases hs
      exact .inr ⟨r, rest, hreqs, requestStep_of_exec_decode h⟩

end Sys2Proof.Machine
end

section
/-! PROOFS. The demodulator state after each shared operation, and what `SAMPLE` performs: the rules of 40_demod.md as
equations and case lemmas that later proofs cite. -/

namespace Sys2Proof.Machine

/-! ### Demodulator elements an operation leaves or writes -/

@[simp] theorem lock_dem_t (s : State) : (lock s).dem.t = s.dem.t := rfl
@[simp] theorem lock_dem_bidx (s : State) : (lock s).dem.bidx = 33 := rfl

@[simp] theorem pushHistory_t (b : Bool) (l : Nat) (a : Int) (d : Demod) : (pushHistory b l a d).t = d.t := rfl

@[simp] theorem bitOut_dem_t (b : Bool) (l : Nat) (a : Int) (s : State) : (bitOut b l a s).dem.t = s.dem.t := by
  rcases bitOut_cases b l a s with ⟨-, -, h⟩ | ⟨-, h⟩ <;> simp [h]

@[simp] theorem unsyncStep_dem_t (acc : Bool) (c : Change) (s : State) : (unsyncStep acc c s).dem.t = s.dem.t := by
  rcases unsyncStep_cases acc c s with ⟨-, h⟩ | ⟨-, -, h⟩ | ⟨-, -, h⟩ <;> simp [h]

/-- FRAMEDONE returns to unsynchronized mode and empties the history (40_demod.md R108). -/
@[simp] theorem frameDone_dem (s : State) :
    (frameDone s).dem = { s.dem with mode := .unsync, nb := 0, skipseen := false } := by
  simp [frameDone, clearSkip]

@[simp] theorem storeFrameBit_t (b : Bool) (d : Demod) : (storeFrameBit b d).t = d.t := by
  unfold storeFrameBit; split <;> rfl

@[simp] theorem frameBit_dem_t (b : Bool) (s : State) : (frameBit b s).dem.t = s.dem.t := by
  rcases frameBit_cases b s with ⟨-, h⟩ | ⟨-, h⟩ <;> simp [h]

/-- Tracking writes the current bit and level, or nothing (R106). -/
theorem trackLevel_cases (acc : Bool) (c : Change) (s : State) :
    (acc = true ∧ trackLevel acc c s
        = { s with dem := { s.dem with curBit := bitValue s.cfg c, curLvl := c.level } })
      ∨ (acc = false ∧ trackLevel acc c s = s) := by
  cases acc
  · exact .inr ⟨rfl, rfl⟩
  · exact .inl ⟨rfl, rfl⟩

@[simp] theorem trackLevel_dem_t (acc : Bool) (c : Change) (s : State) : (trackLevel acc c s).dem.t = s.dem.t := by
  rcases trackLevel_cases acc c s with ⟨-, h⟩ | ⟨-, h⟩ <;> simp [h]

@[simp] theorem lockedStep_dem_t (acc : Bool) (c : Change) (s : State) : (lockedStep acc c s).dem.t = s.dem.t := by
  rcases lockedStep_cases acc c s with ⟨-, h⟩ | ⟨-, h⟩ <;> simp [h]

@[simp] theorem modeStep_dem_t (acc : Bool) (c : Change) (s : State) : (modeStep acc c s).dem.t = s.dem.t := by
  unfold modeStep; split <;> simp

/-! ### What SAMPLE performs -/

/-- The state of a `SAMPLE` when the mode step is invoked: the clock has ticked, time has advanced, the sample is in the
window and the wait has counted down (R91). -/
def sampled (x : Int) (s : State) : State := countDown (winPush x (advanceTime (clkTick s)))

theorem takeSample_eq_modeStep (x : Int) (s : State) :
    takeSample x s = modeStep (observed (sampled x s)) (observe (sampled x s)) (sampled x s) := rfl

@[simp] theorem sampled_K (x : Int) (s : State) : (sampled x s).K = s.K := by simp [sampled]
@[simp] theorem sampled_cfg (x : Int) (s : State) : (sampled x s).cfg = s.cfg := by simp [sampled]
@[simp] theorem sampled_stat (x : Int) (s : State) : (sampled x s).stat = s.stat := by simp [sampled]
@[simp] theorem sampled_rx (x : Int) (s : State) : (sampled x s).rx = s.rx := by simp [sampled]
@[simp] theorem sampled_clk (x : Int) (s : State) : (sampled x s).clk = (clkTick s).clk := by simp [sampled]
@[simp] theorem sampled_tx (x : Int) (s : State) : (sampled x s).tx = (clkTick s).tx := by simp [sampled]
@[simp] theorem sampled_out (x : Int) (s : State) : (sampled x s).out = (clkTick s).out := by simp [sampled]

@[simp] theorem sampled_dem (x : Int) (s : State) :
    (sampled x s).dem = { s.dem with
      t := s.dem.t + s.K.tps
      win := shiftIn s.dem.win x
      wfill := min s.K.w (s.dem.wfill + 1)
      wait := s.dem.wait - (s.K.tps : Int) } := by
  simp [sampled, countDown, winPush, advanceTime]

@[simp] theorem takeSample_dem_t (x : Int) (s : State) : (takeSample x s).dem.t = s.dem.t + s.K.tps := by
  simp [takeSample_eq_modeStep]

@[simp] theorem takeSample_tx (x : Int) (s : State) : (takeSample x s).tx = (clkTick s).tx := by
  simp [takeSample_eq_modeStep]

@[simp] theorem skipSample_dem (s : State) : (skipSample s).dem = { s.dem with skipseen := true } := by
  simp [skipSample]

/-! ### The end of a frame, seen from outside the demodulator -/

/-- A frame that ends is dropped, with a status that says why, or accepted: then its results are written together and
reported, and the clock may be corrected (R108). -/
theorem frameDone_cases (s : State) :
    ((frameDone s).rx = s.rx ∧ (frameDone s).out = s.out ∧ (frameDone s).clk = s.clk
        ∧ ((frameDone s).stat = .uncorrectable ∨ (frameDone s).stat = .idleDiscard))
      ∨ ∃ g, decodeTelegram s.K s.dem.fb = some g ∧ idleChk (unpadPayload g.info) = false
          ∧ (frameDone s).rx = rxResultOf s g ∧ (frameDone s).stat = acceptedStat (rxResultOf s g).errcnt
          ∧ (frameDone s).out = s.out ++ [.rxframe (rxResultOf s g)]
          ∧ ((frameDone s).clk = s.clk ∨ ∃ e, (frameDone s).clk = (clkCorr e s).clk) := by
  rcases settleFrame_cases { s with dem := { s.dem with mode := .unsync, nb := 0 } }
    with ⟨-, h⟩ | ⟨g, -, -, h⟩ | ⟨g, hg, hi, h⟩
  · exact .inl (by simp [frameDone, h])
  · exact .inl (by simp [frameDone, h])
  · refine .inr ⟨g, hg, hi, ?_⟩
    simp only [frameDone, h, acceptTelegram_eq, clearSkip_rx, clearSkip_stat, clearSkip_out, clearSkip_clk]
    refine ⟨rfl, rfl, rfl, ?_⟩
    split
    · exact .inr ⟨_, rfl⟩
    · exact .inl rfl

/-- A recovered bit writes the demodulator state and is reported, whether it locks or not (R103). -/
theorem bitOut_effect (b : Bool) (l : Nat) (a : Int) (s : State) :
    ∃ d, bitOut b l a s = { s with dem := d, out := s.out ++ [.rawbit b l] } := by
  rcases bitOut_cases b l a s with ⟨-, -, h⟩ | ⟨-, h⟩ <;> exact ⟨_, h⟩

/-- One unsynchronized step writes the demodulator state and reports at most one bit (R99-R103). -/
theorem unsyncStep_effect (acc : Bool) (c : Change) (s : State) :
    ∃ d ev, unsyncStep acc c s = { s with dem := d, out := s.out ++ ev } ∧ (ev = [] ∨ ∃ b l, ev = [.rawbit b l]) := by
  rcases unsyncStep_cases acc c s with ⟨-, h⟩ | ⟨-, -, h⟩ | ⟨-, -, h⟩
  · obtain ⟨d, hd⟩ := bitOut_effect _ _ _ _
    exact ⟨d, _, h.trans hd, .inr ⟨_, _, rfl⟩⟩
  · obtain ⟨d, hd⟩ := bitOut_effect _ _ _ _
    exact ⟨d, _, h.trans hd, .inr ⟨_, _, rfl⟩⟩
  · exact ⟨s.dem, [], by simp [h], .inl rfl⟩

/-- One locked step writes the demodulator state and reports at most one bit; if that bit completes the frame, FRAMEDONE
follows (R106, R107). -/
theorem lockedStep_effect (acc : Bool) (c : Change) (s : State) :
    (∃ d ev, lockedStep acc c s = { s with dem := d, out := s.out ++ ev } ∧ (ev = [] ∨ ∃ b l, ev = [.rawbit b l]))
      ∨ ∃ d b l, lockedStep acc c s = frameDone { s with dem := d, out := s.out ++ [.rawbit b l] } := by
  have track : trackLevel acc c s = { s with dem := (trackLevel acc c s).dem } := by
    rcases trackLevel_cases acc c s with ⟨-, h⟩ | ⟨-, h⟩ <;> rw [h]
  rcases lockedStep_cases acc c s with ⟨-, h⟩ | ⟨-, h⟩
  · rw [track] at h
    rcases frameBit_cases _ _ with ⟨-, hb⟩ | ⟨-, hb⟩
    · exact .inr ⟨_, _, _, h.trans hb⟩
    · exact .inl ⟨_, [.rawbit _ _], h.trans hb, .inr ⟨_, _, rfl⟩⟩
  · exact .inl ⟨_, [], by rw [h, List.append_nil]; exact track, .inl rfl⟩

/-- A mode step writes the demodulator state and reports at most one bit; locked, FRAMEDONE may follow (R91). -/
theorem modeStep_effect (acc : Bool) (c : Change) (s : State) :
    (∃ d ev, modeStep acc c s = { s with dem := d, out := s.out ++ ev } ∧ (ev = [] ∨ ∃ b l, ev = [.rawbit b l]))
      ∨ (s.dem.mode = .locked
          ∧ ∃ d b l, modeStep acc c s = frameDone { s with dem := d, out := s.out ++ [.rawbit b l] }) := by
  unfold modeStep
  split
  · exact .inl (unsyncStep_effect acc c s)
  · rename_i hm
    exact (lockedStep_effect acc c s).imp_right fun h => ⟨hm, h⟩

/-- A bit boundary reports at most one transmitted bit (41_framer.md R135). -/
theorem txBoundary_out (s : State) :
    (txBoundary s).out = s.out ∨ ∃ b, (txBoundary s).out = s.out ++ [.txbit b] := by
  rcases txBoundary_cases s with ⟨-, h⟩ | ⟨-, h⟩
  · exact .inr ⟨_, by rw [h]⟩
  · exact .inl (by rw [h])

/-- A clock tick reports at most one transmitted bit (43_clock.md R180). -/
theorem clkTick_out (s : State) : (clkTick s).out = s.out ∨ ∃ b, (clkTick s).out = s.out ++ [.txbit b] := by
  rcases clkTick_cases s with ⟨-, h⟩ | ⟨-, h⟩
  · rw [h]; exact txBoundary_out _
  · exact .inl (by rw [h])

end Sys2Proof.Machine
end

section
/-! PROOFS. The statements of 10_state.md that speak of one operation: the reset values (R30), the flags (R22), the writers
of the configuration and of time (R10, R11, R25), the result registers (R24, R31). -/

namespace Sys2Proof.Machine

/-- Settles O10: the next state of `RESET` is `State.resetWith` with the pending requests kept, so each element is the
value R30 gives it. -/
theorem resetWritesEveryResetValue : Obligations.ResetWritesEveryResetValue := by
  intro s
  refine ⟨_, rfl, ?_⟩
  simp [State.resetWith, Demod.reset, RxResult.reset, Transmit.reset]

/-! ### The flags -/

@[simp] theorem withTxOvr_bit0 (f : BitVec 2) : (withTxOvr f)[0] = true := by simp [withTxOvr]
@[simp] theorem withTxOvr_bit1 (f : BitVec 2) : (withTxOvr f)[1] = f[1] := by simp [withTxOvr]
@[simp] theorem withReqErr_bit0 (f : BitVec 2) : (withReqErr f)[0] = f[0] := by simp [withReqErr]
@[simp] theorem withReqErr_bit1 (f : BitVec 2) : (withReqErr f)[1] = true := by simp [withReqErr]

/-- A telegram loaded over a pending one sets `tx_ovr` (41_framer.md R134). -/
theorem txLoad_flags (p : Payload) (s : State) :
    (txLoad p s).flags = if s.tx.pend = true then withTxOvr s.flags else s.flags := by
  rcases txLoad_cases p s with ⟨hp, h⟩ | ⟨hp, h⟩ <;> simp [hp, h]

/-- No internal operation writes `FLAGS`. -/
theorem InternalStep.flags {i : Instr} {s t : State} (h : InternalStep i s t) : t.flags = s.flags := by
  cases h <;> simp

/-- Settles O13: only `RESET`, `TXLOAD` and the reserved codes write `FLAGS`. -/
theorem flagsAreStickyAndExact : Obligations.FlagsAreStickyAndExact := by
  intro i s t h
  rcases exec_cases h with h | h
  · cases h with
    | reset => simp [State.resetWith]
    | txload p => by_cases hp : s.tx.pend = true <;> simp [txLoad_flags, hp, txload_not_mem_reservedOps]
    | reserved hi =>
      have hr : i ≠ .reset := ne_of_mem_reservedOps hi reset_not_mem_reservedOps
      have hl : ¬ ∃ p, i = .txload p := fun ⟨p, e⟩ => ne_of_mem_reservedOps hi (txload_not_mem_reservedOps p) e
      simp [hi, hr, hl]
    | nop | cfgwr | sample | sampleskip | clkload => simp [reservedOps]
  · have hr : i ≠ .reset := by rintro rfl; cases h.encode_eq_none
    have hl : ¬ ∃ p, i = .txload p := by rintro ⟨p, rfl⟩; cases h.encode_eq_none
    have hv : i ∉ reservedOps := fun hi => encode_ne_none_of_mem_reservedOps hi h.encode_eq_none
    simp [h.flags, hr, hl, hv]

/-! ### The configuration and time -/

/-- No internal operation writes the configuration, the requests that follow or the demodulator time. -/
theorem InternalStep.frame {i : Instr} {s t : State} (h : InternalStep i s t) :
    t.K = s.K ∧ t.reqs = s.reqs ∧ t.dem.t = s.dem.t := by
  cases h <;> simp [winPush]

/-- An internal operation that `movesClock` does not name leaves the clock. -/
theorem InternalStep.clk {i : Instr} {s t : State} (h : InternalStep i s t) (hm : movesClock i = false) :
    t.clk = s.clk := by
  cases h with
  | clktick | lockedStep | framebit | framedone | clkcorr => cases hm
  | txbit | winpush | unsyncStep | bitout | lock | function => simp

/-- Settles O21: of the requests only `SAMPLE` and `RESET` write `t`, and no internal operation does. -/
theorem configurationAndTimeHaveTheirWriters : Obligations.ConfigurationAndTimeHaveTheirWriters := by
  intro i s t h
  rcases exec_cases h with h | h
  · cases h with
    | nop | cfgwr | txload => simp
    | reset => simp [State.resetWith, Demod.reset, movesClock]
    | sample | sampleskip | clkload => simp [movesClock]
    | reserved hi =>
      have hr : i ≠ .reset := ne_of_mem_reservedOps hi reset_not_mem_reservedOps
      have hs (arg) : i ≠ .sample arg := ne_of_mem_reservedOps hi (sample_not_mem_reservedOps arg)
      simp [hr, hs]
  · obtain ⟨hK, hreqs, ht⟩ := h.frame
    have hr : i ≠ .reset := by rintro rfl; cases h.encode_eq_none
    have hs (arg) : i ≠ .sample arg := by rintro rfl; cases h.encode_eq_none
    simpa [hK, hreqs, ht, hr, hs] using h.clk

/-! ### The result registers -/

/-- A clock tick reports no telegram. -/
theorem rxframe_not_mem_clkTick_out {s : State} (h : ∀ q, .rxframe q ∉ s.out) (q : RxResult) :
    .rxframe q ∉ (clkTick s).out := by
  rcases clkTick_out s with e | ⟨b, e⟩ <;> simp [e, h]

theorem acceptedStat_ok_or_okCorrected (n : Nat) : acceptedStat n = .ok ∨ acceptedStat n = .okCorrected := by
  unfold acceptedStat; split <;> simp

/-- A `SAMPLE` leaves the result registers and reports no telegram, or it ends a locked frame, accepts it, and its last
event is the one report of the new results (40_demod.md R108). -/
theorem takeSample_results (x : Int) {s : State} (ho : ∀ q, .rxframe q ∉ s.out) :
    ((takeSample x s).rx = s.rx ∧ ∀ q, .rxframe q ∉ (takeSample x s).out)
      ∨ (s.dem.mode = .locked ∧ (takeSample x s).dem.mode = .unsync
          ∧ ((takeSample x s).stat = .ok ∨ (takeSample x s).stat = .okCorrected)
          ∧ ∃ o, (takeSample x s).out = o ++ [.rxframe (takeSample x s).rx] ∧ ∀ q, .rxframe q ∉ o) := by
  have hu : ∀ q, .rxframe q ∉ (sampled x s).out := by simpa using rxframe_not_mem_clkTick_out ho
  rw [takeSample_eq_modeStep]
  rcases modeStep_effect (observed (sampled x s)) (observe (sampled x s)) (sampled x s)
    with ⟨d, ev, h, hev⟩ | ⟨hm, d, b, l, h⟩
  · left
    rw [h]
    rcases hev with rfl | ⟨b, l, rfl⟩ <;> exact ⟨by simp, by simpa using hu⟩
  · have hbit : ∀ q, Event.rxframe q ∉ (sampled x s).out ++ [.rawbit b l] := by simpa using hu
    rw [h]
    rcases frameDone_cases { sampled x s with dem := d, out := (sampled x s).out ++ [.rawbit b l] }
      with ⟨hrx, hout, -, -⟩ | ⟨g, -, -, hrx, hstat, hout, -⟩
    · left
      rw [hrx, hout]
      exact ⟨sampled_rx x s, hbit⟩
    · right
      rw [hrx, hout, hstat]
      exact ⟨by simpa using hm, by simp, acceptedStat_ok_or_okCorrected _, _, rfl, hbit⟩

/-- Settles O60: every request but `SAMPLE` and `RESET` leaves the result registers, and none of them reports a telegram. -/
theorem resultsChangeOnlyOnAcceptance : Obligations.ResultsChangeOnlyOnAcceptance := by
  intro r s t h hr
  have hstep := requestStep_of_exec_decode h
  generalize decode r = i at hstep hr
  cases hstep with
  | reset => exact absurd rfl hr
  | sample arg =>
    rcases takeSample_results (sampleOperand s.K arg) (s := beginRequest s) (by simp) with h | h
    · exact .inl h
    · exact .inr ⟨⟨arg, rfl⟩, h⟩
  | sampleskip =>
    exact .inl ⟨by simp, rxframe_not_mem_clkTick_out (s := beginRequest s) (by simp)⟩
  | nop | cfgwr | txload | clkload | reserved => exact .inl (by simp [reservedRequest])

end Sys2Proof.Machine
end

section
/-! PROOFS. The invariant in its parts: the transmit registers, the result registers, the demodulator's ranges, its sequencer
and its wait. Each shared operation keeps the parts it touches. -/

namespace Sys2Proof.Machine

open Sys2Proof.Config

/-- The demodulator's ranges in either mode (10_state.md R13-R19, 70_reset_and_hazards.md R264). -/
structure DemodRanges (K : Params) (d : Demod) : Prop where
  win_range : windowInRange K d.win = true
  wfill_le : d.wfill ≤ K.w
  nb_le : d.nb ≤ 33
  hl_length : d.hl.length = 33
  hw_length : d.hw.length = 33
  hl_lt : ∀ l ∈ d.hl, l < 2 ^ K.sw
  hw_le : ∀ a ∈ d.hw, a ≤ (d.t : Int)
  curLvl_lt : d.curLvl < 2 ^ K.sw
  syncLevel_lt : d.syncLevel < 2 ^ K.sw

/-- What the mode of the receive sequencer says of `bidx`, `nb` and `wait` (40_demod.md R105, R111). -/
structure Sequenced (K : Params) (d : Demod) : Prop where
  bidx_unsync : d.mode = .unsync → d.bidx = 0 ∨ d.bidx = 184
  bidx_locked : d.mode = .locked → 33 ≤ d.bidx ∧ d.bidx ≤ 183
  nb_locked : d.mode = .locked → d.nb = 33
  locked_instant : d.mode = .locked → (d.t : Int) + d.wait
    = d.origin + ((d.bidx : Int) - 16) * (K.bitT : Int) + (K.phaseT : Int)

/-- Until the first lock `wait` is in `lo+1 .. 3 * BIT_T / 2`: with `lo = 0` between requests, with `lo = -TPS` inside a
`SAMPLE` that has counted down and not yet performed the mode step. -/
def WaitAbove (K : Params) (lo : Int) (d : Demod) : Prop :=
  d.bidx = 0 → lo < d.wait ∧ d.wait ≤ 3 * (K.bitT : Int) / 2

/-- The transmit registers hold frames of telegrams (41_framer.md R134, R135). -/
structure TransmitInv (K : Params) (x : Transmit) : Prop where
  txidx_range : x.idx ≤ 184 ∧ (x.act = true → x.idx < 184)
  txn_frame : x.pend = true → ∃ p, x.txn = frame K (encodeTelegram K p)
  txf_frame : x.act = true → ∃ p, x.txf = frame K (encodeTelegram K p)

/-- The result registers are consistent with `stat` and with each other (10_state.md R23, R24). -/
structure ResultInv (K : Params) (st : Stat) (rx : RxResult) : Prop where
  eflag_range : rx.eflag.length = 10 ∧ ∀ e ∈ rx.eflag, e ≤ 2
  errcnt_eq : rx.errcnt = rx.eflag.sum
  opcode_eq : rx.opcode = opcodeOf rx.payload
  syncerr_range : (rx.tvalid = false → rx.syncerr = 0)
    ∧ -((K.rxperT : Int) / 2) ≤ rx.syncerr ∧ rx.syncerr < (K.rxperT : Int) / 2
  stat_ok : (st = .ok → rx.errcnt = 0) ∧ (st = .okCorrected → 0 < rx.errcnt)
  not_idle : st = .ok ∨ st = .okCorrected → idleChk rx.payload = false

/-- The invariant is its parts. -/
theorem inv_iff (s : State) : Inv s ↔ Admissible s.K ∧ DemodRanges s.K s.dem ∧ Sequenced s.K s.dem
    ∧ WaitAbove s.K 0 s.dem ∧ s.clk < superT s.K ∧ TransmitInv s.K s.tx ∧ ResultInv s.K s.stat s.rx where
  mp h := ⟨h.admissible, { h with }, { h with }, h.wait_range, h.clk_lt, { h with }, { h with }⟩
  mpr := fun ⟨admissible, hd, hs, wait_range, clk_lt, ht, hr⟩ => { hd, hs, ht, hr with admissible, wait_range, clk_lt }

/-! ### What an admissible configuration gives -/

theorem Admissible.bitT_pos {K : Params} (h : Admissible K) : 0 < K.bitT := by
  have := h.bitT_ge; have := h.tps_pos; omega

theorem Admissible.superT_pos {K : Params} (h : Admissible K) : 0 < superT K :=
  Nat.mul_pos (by decide) h.slotT_pos

/-- `RXPER_T` is even and positive, so its two halves are the bounds of a sync error (43_clock.md R183). -/
theorem Admissible.rxperT_halves {K : Params} (h : Admissible K) :
    0 < (K.rxperT : Int) / 2 ∧ (K.rxperT : Int) = (K.rxperT : Int) / 2 + (K.rxperT : Int) / 2 := by
  have heven : 2 ∣ K.rxperT :=
    (Nat.dvd_of_mod_eq_zero h.bitT_even).trans (Nat.dvd_of_mod_eq_zero h.rxperT_mult)
  have hpos : 184 * K.bitT ≤ K.rxperT := (Nat.mul_le_mul_right _ (Nat.le_add_left _ _)).trans h.rxperT_ge
  have := h.bitT_pos
  omega

theorem Admissible.half_range {K : Params} (h : Admissible K) : (2 : Int) ^ K.sw = 2 * 2 ^ (K.sw - 1) := by
  rw [← pow_succ', Nat.sub_add_cancel (by have := h.sw_ge; omega)]

/-! ### Samples, windows and levels -/

theorem sampleInRange_iff {K : Params} {x : Int} :
    sampleInRange K x = true ↔ -(2 ^ (K.sw - 1) : Int) ≤ x ∧ x < (2 ^ (K.sw - 1) : Int) := by
  simp [sampleInRange]

theorem windowInRange_iff {K : Params} {win : List Int} :
    windowInRange K win = true ↔ win.length = K.w ∧ ∀ x ∈ win, sampleInRange K x = true := by
  simp [windowInRange]

/-- Two's complement of `n` bits lies in `-2^(n-1) .. 2^(n-1)-1` (00_scope.md R7). -/
theorem sext_range {n : Nat} (hn : 1 ≤ n) (v : Nat) :
    -(2 ^ (n - 1) : Int) ≤ sext n v ∧ sext n v < (2 ^ (n - 1) : Int) := by
  have hlt : zext n v < 2 ^ n := Nat.mod_lt _ (by positivity)
  have hdouble : 2 ^ n = 2 * 2 ^ (n - 1) := by rw [← pow_succ', Nat.sub_add_cancel hn]
  have hcast : ((2 ^ (n - 1) : Nat) : Int) = 2 ^ (n - 1) := by push_cast; rfl
  have hcast' : (2 : Int) ^ n = 2 * 2 ^ (n - 1) := by exact_mod_cast hdouble
  unfold sext
  split <;> omega

/-- A decoded sample is in range (30_encoding.md R61). -/
theorem sampleInRange_sampleOperand {K : Params} (h : Admissible K) (arg : Arg) :
    sampleInRange K (sampleOperand K arg) = true :=
  sampleInRange_iff.mpr (sext_range (le_trans (by decide) h.sw_ge) arg.toNat)

theorem windowInRange_shiftIn {K : Params} (h : Admissible K) {win : List Int} {x : Int}
    (hwin : windowInRange K win = true) (hx : sampleInRange K x = true) : windowInRange K (shiftIn win x) = true := by
  obtain ⟨hlen, hall⟩ := windowInRange_iff.mp hwin
  refine windowInRange_iff.mpr ⟨?_, fun y hy => ?_⟩
  · have := h.w_ge
    rw [length_shiftIn]; omega
  · rcases mem_shiftIn hy with hy | rfl
    · exact hall y hy
    · exact hx

/-- The spread of samples in range is at most `2^SW - 1` (70_reset_and_hazards.md R264). -/
theorem spread_lt {K : Params} (h : Admissible K) {win : List Int} (hwin : windowInRange K win = true) :
    spread win < 2 ^ K.sw := by
  have hall (x) (hx : x ∈ win) := sampleInRange_iff.mp ((windowInRange_iff.mp hwin).2 x hx)
  have hhalf := h.half_range
  have hcast : ((2 ^ K.sw : Nat) : Int) = 2 ^ K.sw := by push_cast; rfl
  have hpos : (0 : Int) < 2 ^ (K.sw - 1) := by positivity
  cases win with
  | nil => simp [spread]
  | cons a rest =>
    have ha := hall a List.mem_cons_self
    have hmax : rest.foldl max a < 2 ^ (K.sw - 1) :=
      List.foldlRecOn (motive := (· < _)) rest max ha.2 fun m hm x hx => max_lt hm (hall x (List.mem_cons_of_mem a hx)).2
    have hmin : -2 ^ (K.sw - 1) ≤ rest.foldl min a :=
      List.foldlRecOn (motive := (_ ≤ ·)) rest min ha.1 fun m hm x hx => le_min hm (hall x (List.mem_cons_of_mem a hx)).1
    simp only [spread]
    omega

/-- The level of a classifier result is the spread of the window, candidate or not (40_demod.md R93). -/
theorem classify_level (cfg : BitVec 3) (win : List Int) : (classify cfg win).level = spread win := by
  have hslope : (classifySlope win).level = spread win := by
    unfold classifySlope
    split
    · rfl
    · split <;> rfl
  have hzc : (classifyZc win).level = spread win := by unfold classifyZc; split <;> rfl
  unfold classify
  split
  · exact hzc
  · exact hslope

/-! ### The demodulator's ranges -/

section
variable {K : Params} {d : Demod} {s : State}

/-- A bit that has arrived, with a level in range, enters the histories (R103). -/
theorem demodRanges_pushHistory (h : DemodRanges K d) (b : Bool) {l : Nat} (hl : l < 2 ^ K.sw) {a : Int}
    (ha : a ≤ (d.t : Int)) : DemodRanges K (pushHistory b l a d) :=
  { h with
    nb_le := Nat.min_le_left _ _
    hl_length := by simp [pushHistory, h.hl_length]
    hw_length := by simp [pushHistory, h.hw_length]
    hl_lt := fun _ hm => (mem_shiftIn hm).elim (h.hl_lt _) fun e => e ▸ hl
    hw_le := fun _ hm => (mem_shiftIn hm).elim (h.hw_le _) fun e => e ▸ ha }

theorem demodRanges_storeFrameBit (h : DemodRanges K d) (b : Bool) : DemodRanges K (storeFrameBit b d) := by
  unfold storeFrameBit
  split <;> exact { h with }

/-- A sample enters the window, and time goes on (R91, R94). -/
theorem demodRanges_sampled {x : Int} (hK : Admissible s.K) (h : DemodRanges s.K s.dem)
    (hx : sampleInRange s.K x = true) : DemodRanges s.K (sampled x s).dem := by
  rw [sampled_dem]
  exact { h with
    win_range := windowInRange_shiftIn hK h.win_range hx
    wfill_le := Nat.min_le_left _ _
    hw_le := fun a ha => (h.hw_le a ha).trans (by push_cast; omega) }

/-- The mean of 33 levels in range is in range (R105). -/
theorem meanLevel_lt {hl : List Nat} {n : Nat} (hlen : hl.length = 33) (hlt : ∀ l ∈ hl, l < n) : meanLevel hl < n := by
  have hn : 0 < n := by
    obtain ⟨l, hl⟩ := List.exists_mem_of_length_pos (l := hl) (by omega)
    exact Nat.zero_lt_of_lt (hlt l hl)
  have hsum : hl.sum ≤ hl.length * (n - 1) :=
    List.sum_le_card_nsmul hl (n - 1) fun l hl => Nat.le_sub_one_of_lt (hlt l hl)
  rw [meanLevel, Nat.div_lt_iff_lt_mul (by decide)]
  rw [hlen] at hsum
  omega

theorem demodRanges_lock (h : DemodRanges K s.dem) : DemodRanges K (lock s).dem :=
  { h with syncLevel_lt := meanLevel_lt h.hl_length h.hl_lt }

theorem demodRanges_bitOut {b : Bool} {l : Nat} {a : Int} (h : DemodRanges K s.dem) (hl : l < 2 ^ K.sw)
    (ha : a ≤ (s.dem.t : Int)) : DemodRanges K (bitOut b l a s).dem := by
  have hpush := demodRanges_pushHistory h b hl ha
  rcases bitOut_cases b l a s with ⟨-, -, e⟩ | ⟨-, e⟩
  · rw [e]; exact demodRanges_lock hpush
  · rw [e]; exact hpush

theorem demodRanges_unsyncStep (h : DemodRanges K s.dem) (acc : Bool) {c : Change} (hc : c.level < 2 ^ K.sw) :
    DemodRanges K (unsyncStep acc c s).dem := by
  rcases unsyncStep_cases acc c s with ⟨-, e⟩ | ⟨-, -, e⟩ | ⟨-, -, e⟩
  · rw [e]; exact demodRanges_bitOut { h with curLvl_lt := hc } hc le_rfl
  · have hpast : (s.dem.t : Int) - (s.K.bitT : Int) / 2 ≤ s.dem.t := by omega
    rw [e]; exact demodRanges_bitOut { h with } h.curLvl_lt hpast
  · rw [e]; exact h

theorem demodRanges_frameBit {b : Bool} (h : DemodRanges K s.dem) : DemodRanges K (frameBit b s).dem := by
  have hstore := demodRanges_storeFrameBit h b
  rcases frameBit_cases b s with ⟨-, e⟩ | ⟨-, e⟩
  · rw [e, frameDone_dem]; exact { hstore with nb_le := Nat.zero_le _ }
  · rw [e]; exact hstore

theorem demodRanges_trackLevel (h : DemodRanges K s.dem) (acc : Bool) {c : Change} (hc : c.level < 2 ^ K.sw) :
    DemodRanges K (trackLevel acc c s).dem := by
  rcases trackLevel_cases acc c s with ⟨-, e⟩ | ⟨-, e⟩
  · rw [e]; exact { h with curLvl_lt := hc }
  · rw [e]; exact h

theorem demodRanges_lockedStep (h : DemodRanges K s.dem) (acc : Bool) {c : Change} (hc : c.level < 2 ^ K.sw) :
    DemodRanges K (lockedStep acc c s).dem := by
  have htrack := demodRanges_trackLevel h acc hc
  rcases lockedStep_cases acc c s with ⟨-, e⟩ | ⟨-, e⟩
  · rw [e]; exact demodRanges_frameBit { htrack with }
  · rw [e]; exact htrack

theorem demodRanges_modeStep (h : DemodRanges K s.dem) (acc : Bool) {c : Change} (hc : c.level < 2 ^ K.sw) :
    DemodRanges K (modeStep acc c s).dem := by
  unfold modeStep
  split
  · exact demodRanges_unsyncStep h acc hc
  · exact demodRanges_lockedStep h acc hc

/-! ### The sequencer and the wait -/

theorem sequenced_of_unsync (hm : d.mode = .unsync) (hb : d.bidx = 0 ∨ d.bidx = 184) : Sequenced K d := by
  constructor <;> simp [hm, hb]

theorem waitAbove_of_bidx_ne_zero {lo : Int} (h : d.bidx ≠ 0) : WaitAbove K lo d := fun h0 => absurd h0 h

/-- LOCK sets `wait` to the sampling instant of frame bit 33, the marker (R105). -/
theorem sequenced_lock (hK : s.K = K) (h : s.dem.nb = 33) : Sequenced K (lock s).dem where
  bidx_unsync := nofun
  bidx_locked _ := by simp
  nb_locked _ := h
  locked_instant _ := by subst hK; simp only [lock]; push_cast; ring

/-- Unsynchronized, a recovered bit leaves the sequencer as it was or locks it. -/
theorem bitOut_sequenced {b : Bool} {l : Nat} {a : Int} (hK : s.K = K) (hm : s.dem.mode = .unsync)
    (hb : s.dem.bidx = 0 ∨ s.dem.bidx = 184) (hw : WaitAbove K 0 s.dem) :
    Sequenced K (bitOut b l a s).dem ∧ WaitAbove K 0 (bitOut b l a s).dem := by
  rcases bitOut_cases b l a s with ⟨hnb, -, e⟩ | ⟨-, e⟩
  · rw [e]
    exact ⟨sequenced_lock hK hnb, waitAbove_of_bidx_ne_zero (by simp)⟩
  · rw [e]
    exact ⟨sequenced_of_unsync hm hb, hw⟩

/-- The unsynchronized step keeps the sequencer, and brings an expired wait above 0 again (R99-R102). -/
theorem unsyncStep_sequenced (hK : Admissible s.K) (acc : Bool) (c : Change) (hm : s.dem.mode = .unsync)
    (hs : Sequenced s.K s.dem) (hw : WaitAbove s.K (-s.K.tps) s.dem) :
    Sequenced s.K (unsyncStep acc c s).dem ∧ WaitAbove s.K 0 (unsyncStep acc c s).dem := by
  have hb := hs.bidx_unsync hm
  have hbit := hK.bitT_pos
  have htps := hK.bitT_ge
  rcases unsyncStep_cases acc c s with ⟨-, e⟩ | ⟨-, hle, e⟩ | ⟨-, hlt, e⟩
  · have hwait : 0 < 3 * (s.K.bitT : Int) / 2 := by omega
    rw [e]
    exact bitOut_sequenced rfl hm hb fun _ => ⟨hwait, le_rfl⟩
  · have hwait (h0 : s.dem.bidx = 0) :
        0 < s.dem.wait + (s.K.bitT : Int) ∧ s.dem.wait + (s.K.bitT : Int) ≤ 3 * (s.K.bitT : Int) / 2 := by
      have := (hw h0).1
      omega
    rw [e]
    exact bitOut_sequenced rfl hm hb hwait
  · rw [e]
    exact ⟨hs, fun h0 => ⟨hlt, (hw h0).2⟩⟩

@[simp] theorem storeFrameBit_mode (b : Bool) (d : Demod) : (storeFrameBit b d).mode = d.mode := by
  unfold storeFrameBit; split <;> rfl
@[simp] theorem storeFrameBit_nb (b : Bool) (d : Demod) : (storeFrameBit b d).nb = d.nb := by
  unfold storeFrameBit; split <;> rfl
@[simp] theorem storeFrameBit_wait (b : Bool) (d : Demod) : (storeFrameBit b d).wait = d.wait := by
  unfold storeFrameBit; split <;> rfl
@[simp] theorem storeFrameBit_origin (b : Bool) (d : Demod) : (storeFrameBit b d).origin = d.origin := by
  unfold storeFrameBit; split <;> rfl

/-- A locked frame bit moves the index on; with the wait moved on by one bit beforehand, the wait runs to the next sampling
instant. The last bit ends the lock (R106, R107). -/
theorem frameBit_sequenced {b : Bool} (hm : s.dem.mode = .locked) (hb : 33 ≤ s.dem.bidx ∧ s.dem.bidx ≤ 183)
    (hnb : s.dem.nb = 33) (hi : (s.dem.t : Int) + s.dem.wait
      = s.dem.origin + ((s.dem.bidx : Int) + 1 - 16) * (K.bitT : Int) + (K.phaseT : Int)) :
    Sequenced K (frameBit b s).dem ∧ (frameBit b s).dem.bidx ≠ 0 := by
  rcases frameBit_cases b s with ⟨hlast, e⟩ | ⟨hmore, e⟩
  · rw [e, frameDone_dem]
    exact ⟨sequenced_of_unsync rfl (.inr hlast), by simp⟩
  · rw [e]
    rw [storeFrameBit_bidx] at hmore
    exact ⟨{ bidx_unsync := by simp [hm]
             bidx_locked := fun _ => by rw [storeFrameBit_bidx]; omega
             nb_locked := fun _ => by simpa using hnb
             locked_instant := fun _ => by simpa using hi }, by simp⟩

/-- Tracking the level leaves the sequencer (R106). -/
theorem sequenced_trackLevel (acc : Bool) (c : Change) (h : Sequenced K s.dem) (hm : s.dem.mode = .locked) :
    Sequenced K (trackLevel acc c s).dem ∧ (trackLevel acc c s).dem.mode = .locked := by
  rcases trackLevel_cases acc c s with ⟨-, e⟩ | ⟨-, e⟩
  · rw [e]; exact ⟨{ h with }, hm⟩
  · rw [e]; exact ⟨h, hm⟩

/-- The locked step keeps the sequencer (R106). -/
theorem lockedStep_sequenced (acc : Bool) (c : Change) (hm : s.dem.mode = .locked) (hs : Sequenced s.K s.dem) :
    Sequenced s.K (lockedStep acc c s).dem ∧ (lockedStep acc c s).dem.bidx ≠ 0 := by
  obtain ⟨htrack, hmode⟩ := sequenced_trackLevel acc c hs hm
  have hbidx := htrack.bidx_locked hmode
  rcases lockedStep_cases acc c s with ⟨-, e⟩ | ⟨-, e⟩
  · have hnext := htrack.locked_instant hmode
    rw [e]
    exact frameBit_sequenced hmode hbidx (htrack.nb_locked hmode) (by dsimp only; linarith)
  · rw [e]
    exact ⟨htrack, by omega⟩

/-- Counting down and advancing time together leave the sampling instant (R91). -/
theorem sampled_sequenced (x : Int) (hs : Sequenced s.K s.dem) (hw : WaitAbove s.K 0 s.dem) :
    Sequenced s.K (sampled x s).dem ∧ WaitAbove s.K (-s.K.tps) (sampled x s).dem := by
  rw [sampled_dem]
  refine ⟨{ hs with locked_instant := fun hm => ?_ }, fun h0 => ?_⟩
  · have := hs.locked_instant hm
    push_cast
    linarith
  · have := hw h0
    dsimp only
    omega

theorem modeStep_sequenced (hK : Admissible s.K) (acc : Bool) (c : Change) (hs : Sequenced s.K s.dem)
    (hw : WaitAbove s.K (-s.K.tps) s.dem) :
    Sequenced s.K (modeStep acc c s).dem ∧ WaitAbove s.K 0 (modeStep acc c s).dem := by
  cases hm : s.dem.mode with
  | unsync => simpa only [modeStep, hm] using unsyncStep_sequenced hK acc c hm hs hw
  | locked =>
    simpa only [modeStep, hm] using (lockedStep_sequenced acc c hm hs).imp_right waitAbove_of_bidx_ne_zero

/-! ### The transmit registers -/

theorem transmitInv_startPending (h : TransmitInv s.K s.tx) : TransmitInv s.K (startPending s) := by
  rcases startPending_cases s with ⟨hp, -, -, e⟩ | ⟨-, e⟩
  · rw [e]
    exact { txidx_range := by simp, txn_frame := nofun, txf_frame := fun _ => h.txn_frame hp }
  · rw [e]; exact h

theorem transmitInv_txBoundary (h : TransmitInv s.K s.tx) : TransmitInv s.K (txBoundary s).tx := by
  have hstart := transmitInv_startPending h
  rcases txBoundary_cases s with ⟨hact, e⟩ | ⟨-, e⟩
  · have hlt := hstart.txidx_range.2 hact
    rw [e]
    exact { txidx_range := by simp only [decide_eq_true_eq]; omega
            txn_frame := hstart.txn_frame
            txf_frame := fun _ => hstart.txf_frame hact }
  · rw [e]; exact h

theorem transmitInv_clkTick (h : TransmitInv s.K s.tx) : TransmitInv s.K (clkTick s).tx := by
  rcases clkTick_cases s with ⟨-, e⟩ | ⟨-, e⟩
  · rw [e]; exact transmitInv_txBoundary (s := { s with clk := (s.clk + s.K.tps) % superT s.K }) h
  · rw [e]; exact h

theorem transmitInv_txLoad (p : Payload) (h : TransmitInv s.K s.tx) : TransmitInv s.K (txLoad p s).tx := by
  rcases txLoad_cases p s with ⟨-, e⟩ | ⟨-, e⟩
  · rw [e]; exact h
  · rw [e]; exact { h with txn_frame := fun _ => ⟨p, rfl⟩ }

/-! ### The clock -/

theorem clkTick_clk_lt (hK : Admissible s.K) : (clkTick s).clk < superT s.K := by
  rw [clkTick_clk]; exact Nat.mod_lt _ hK.superT_pos

theorem clkCorr_clk_lt (hK : Admissible s.K) (e : Int) : (clkCorr e s).clk < superT s.K := by
  have hpos : (0 : Int) < superT s.K := by exact_mod_cast hK.superT_pos
  rw [clkCorr_clk]
  have := Int.emod_lt_of_pos ((s.clk : Int) - correction s.K e) hpos
  omega

/-! ### The result registers -/

/-- A word decodes with a flag in `{0,1,2}` (42_codec.md R158). -/
theorem flag_le_two_of_bchDec {w : CodeWord} {r : Group × Nat} (h : bchDec K w = some r) : r.2 ≤ 2 := by
  obtain ⟨c, as, bs, hl, -, -, hflag, -⟩ := bchDec_some h
  have hc : c ∈ candidates w := by simp [hl]
  simp only [candidates, List.cons_append, List.mem_cons, List.mem_append, List.mem_map] at hc
  rcases hc with rfl | ⟨i, -, rfl⟩ | ⟨p, -, rfl⟩ <;> simp [← hflag]

theorem flag_le_two_of_decodeWords {ws : List CodeWord} {rs : List (Group × Nat)} (h : decodeWords K ws = some rs) :
    ∀ r ∈ rs, r.2 ≤ 2 := by
  replace h := decodeWords_some.mp h
  induction h with
  | nil => simp
  | cons hr _ ih => exact List.forall_mem_cons.mpr ⟨flag_le_two_of_bchDec hr, ih⟩

/-- A decoded telegram has ten flags in `{0,1,2}` (R160). -/
theorem eflag_range_of_decodeTelegram {y : Coded} {g : Telegram} (h : decodeTelegram K y = some g) :
    g.eflag.length = 10 ∧ ∀ e ∈ g.eflag, e ≤ 2 := by
  unfold decodeTelegram at h
  split at h
  · cases h
  · rename_i rs hrs
    cases h
    refine ⟨by simp [← (decodeWords_some.mp hrs).length_eq], fun e he => ?_⟩
    obtain ⟨r, hr, rfl⟩ := List.mem_map.mp he
    exact flag_le_two_of_decodeWords hrs r hr

/-- A sync error lies in `-RXPER_T/2 .. RXPER_T/2 - 1` (43_clock.md R183). -/
theorem syncErr_range (hK : Admissible s.K) (origin : Int) :
    -((s.K.rxperT : Int) / 2) ≤ syncErr s origin ∧ syncErr s origin < (s.K.rxperT : Int) / 2 := by
  obtain ⟨hpos, hhalves⟩ := hK.rxperT_halves
  have hlo := Int.emod_nonneg (clockAt s origin - (s.K.originT : Int) + (s.K.rxperT : Int) / 2)
    (b := s.K.rxperT) (by omega)
  have hhi := Int.emod_lt_of_pos (clockAt s origin - (s.K.originT : Int) + (s.K.rxperT : Int) / 2)
    (b := s.K.rxperT) (by omega)
  unfold syncErr
  omega

/-- The results of an accepted telegram are consistent (40_demod.md R108). -/
theorem resultInv_rxResultOf (hK : Admissible s.K) {g : Telegram} (hg : decodeTelegram s.K s.dem.fb = some g)
    (hi : idleChk (unpadPayload g.info) = false) :
    ResultInv s.K (acceptedStat (rxResultOf s g).errcnt) (rxResultOf s g) where
  eflag_range := eflag_range_of_decodeTelegram hg
  errcnt_eq := rfl
  opcode_eq := rfl
  syncerr_range := by
    have hzero := hK.rxperT_halves.1
    simp only [rxResultOf]
    cases s.dem.skipseen
    · simpa using syncErr_range hK s.dem.origin
    · simpa using ⟨hzero.le, hzero⟩
  stat_ok := by
    unfold acceptedStat
    split <;> simp_all [Nat.pos_iff_ne_zero]
  not_idle _ := hi

/-- With a status that accepts nothing, the results need no relation to it. -/
theorem resultInv_of_dropped {st st' : Stat} {rx : RxResult} (h : ResultInv K st rx)
    (hst : st' = .uncorrectable ∨ st' = .idleDiscard) : ResultInv K st' rx :=
  { h with
    stat_ok := by rcases hst with rfl | rfl <;> exact ⟨nofun, nofun⟩
    not_idle := by rcases hst with rfl | rfl <;> simp }

/-- The end of a frame keeps the results consistent and the clock in its range. -/
theorem frameDone_resultInv (hK : Admissible s.K) (hr : ResultInv s.K s.stat s.rx) (hc : s.clk < superT s.K) :
    ResultInv s.K (frameDone s).stat (frameDone s).rx ∧ (frameDone s).clk < superT s.K := by
  rcases frameDone_cases s with ⟨hrx, -, hclk, hstat⟩ | ⟨g, hg, hi, hrx, hstat, -, hclk⟩
  · rw [hrx, hclk]
    exact ⟨resultInv_of_dropped hr hstat, hc⟩
  · rw [hrx, hstat]
    refine ⟨resultInv_rxResultOf hK hg hi, ?_⟩
    rcases hclk with hclk | ⟨e, hclk⟩
    · rw [hclk]; exact hc
    · rw [hclk]; exact clkCorr_clk_lt hK e

theorem modeStep_resultInv (hK : Admissible s.K) (acc : Bool) (c : Change) (hr : ResultInv s.K s.stat s.rx)
    (hc : s.clk < superT s.K) :
    ResultInv s.K (modeStep acc c s).stat (modeStep acc c s).rx ∧ (modeStep acc c s).clk < superT s.K := by
  rcases modeStep_effect acc c s with ⟨d, ev, e, -⟩ | ⟨-, d, b, l, e⟩
  · rw [e]; exact ⟨hr, hc⟩
  · rw [e]; exact frameDone_resultInv (s := { s with dem := d, out := _ }) hK hr hc

end

end Sys2Proof.Machine
end

section
/-! PROOFS. The invariant holds after reset and every step keeps it. -/

namespace Sys2Proof.Machine

open Sys2Proof.Config

/-- The reset state of every admissible configuration meets the invariant (10_state.md R30). -/
theorem inv_resetWith {K : Params} (hK : Admissible K) : Inv (State.resetWith K) := by
  have hbit := hK.bitT_pos
  have hper := hK.rxperT_halves.1
  have hwait : 0 < 3 * (K.bitT : Int) / 2 := by omega
  have hhalf : (0 : Int) < 2 ^ (K.sw - 1) := by positivity
  have hzero : sampleInRange K 0 = true := sampleInRange_iff.mpr ⟨by omega, hhalf⟩
  have hwin : windowInRange K (List.replicate K.w 0) = true :=
    windowInRange_iff.mpr ⟨List.length_replicate, fun x hx => (List.eq_of_mem_replicate hx).symm ▸ hzero⟩
  exact
    { admissible := hK
      win_range := hwin
      wfill_le := Nat.zero_le _
      nb_le := Nat.zero_le _
      hl_length := rfl
      hw_length := rfl
      hl_lt := fun l hl => by rw [List.eq_of_mem_replicate hl]; exact Nat.two_pow_pos _
      hw_le := fun a ha => by rw [List.eq_of_mem_replicate ha]; exact le_rfl
      curLvl_lt := Nat.two_pow_pos _
      syncLevel_lt := Nat.two_pow_pos _
      bidx_unsync := fun _ => .inl rfl
      bidx_locked := nofun
      nb_locked := nofun
      locked_instant := nofun
      wait_range := fun _ => ⟨hwait, le_rfl⟩
      clk_lt := hK.superT_pos
      txidx_range := ⟨Nat.zero_le _, nofun⟩
      txn_frame := nofun
      txf_frame := nofun
      eflag_range := ⟨rfl, fun e he => by rw [List.eq_of_mem_replicate he]; exact Nat.zero_le 2⟩
      errcnt_eq := rfl
      opcode_eq := show 0#6 = opcodeOf 0#64 by decide
      syncerr_range := ⟨fun _ => rfl, by simpa [State.resetWith, RxResult.reset] using hper.le, hper⟩
      stat_ok := ⟨nofun, nofun⟩
      not_idle := nofun }

/-- The invariant speaks of no field but those of the spec. -/
theorem Inv.of_sameSpec {s t : State} (h : Inv s) (e : SameSpec s t) : Inv t := by
  obtain ⟨hK, hdem, -, -, hstat, hrx, hclk, htx⟩ := e
  rw [inv_iff] at h ⊢
  rwa [hK, hdem, hstat, hrx, hclk, htx]

/-- `SAMPLE` keeps the invariant: the clock tick, the window, the count-down and the mode step each keep their parts. -/
theorem inv_takeSample {s : State} {x : Int} (h : Inv s) (hx : sampleInRange s.K x = true) : Inv (takeSample x s) := by
  obtain ⟨hK, hd, hs, hw, -, ht, hr⟩ := (inv_iff s).mp h
  have hu : Admissible (sampled x s).K := by rwa [sampled_K]
  have hud := demodRanges_sampled hK hd hx
  have hlevel : (observe (sampled x s)).level < 2 ^ s.K.sw := by
    rw [observe, classify_level]; exact spread_lt hK hud.win_range
  obtain ⟨hus, huw⟩ := sampled_sequenced x hs hw
  rw [← sampled_K x s] at hus huw
  obtain ⟨hms, hmw⟩ := modeStep_sequenced hu (observed (sampled x s)) (observe (sampled x s)) hus huw
  obtain ⟨hmr, hmc⟩ := modeStep_resultInv hu (observed (sampled x s)) (observe (sampled x s)) (by simpa using hr)
    (by simpa using clkTick_clk_lt hK)
  rw [inv_iff, takeSample_K, takeSample_tx]
  rw [sampled_K] at hms hmw hmr hmc
  exact ⟨hK, demodRanges_modeStep hud _ hlevel, hms, hmw, hmc, transmitInv_clkTick ht, hmr⟩

/-- `SAMPLESKIP` keeps the invariant: only the local clock moves (R92). -/
theorem inv_skipSample {s : State} (h : Inv s) : Inv (skipSample s) := by
  obtain ⟨hK, hd, hs, hw, -, ht, hr⟩ := (inv_iff s).mp h
  rw [inv_iff, skipSample_K, skipSample_dem, skipSample_stat, skipSample_rx]
  exact ⟨hK, { hd with }, { hs with }, hw, clkTick_clk_lt hK, transmitInv_clkTick ht, hr⟩

theorem inv_txLoad {s : State} (p : Payload) (h : Inv s) : Inv (txLoad p s) := by
  obtain ⟨hK, hd, hs, hw, hc, ht, hr⟩ := (inv_iff s).mp h
  rw [inv_iff, txLoad_K, txLoad_dem, txLoad_stat, txLoad_rx, txLoad_clk]
  exact ⟨hK, hd, hs, hw, hc, transmitInv_txLoad p ht, hr⟩

/-- Every request keeps the invariant. -/
theorem inv_requestStep {i : Instr} {s t : State} (hs : Inv s) (h : RequestStep i s t) : Inv t := by
  have hbegin : Inv (beginRequest s) := hs.of_sameSpec ⟨rfl, rfl, rfl, rfl, rfl, rfl, rfl, rfl⟩
  cases h with
  | nop => exact hbegin
  | reset => exact { inv_resetWith hs.admissible with }
  | cfgwr c => exact { hbegin with }
  | sample arg => exact inv_takeSample hbegin (sampleInRange_sampleOperand hs.admissible arg)
  | sampleskip => exact inv_skipSample hbegin
  | txload p => exact inv_txLoad p hbegin
  | clkload arg => exact { hbegin with clk_lt := Nat.mod_lt _ hs.admissible.superT_pos }
  | reserved => exact { hs with }

/-- Settles O8: a step performs one request, and every request keeps the invariant. -/
theorem stepKeepsInvariant : Obligations.StepKeepsInvariant := by
  intro s t h hstep
  rcases step_cases hstep with rfl | ⟨r, rest, -, hr⟩
  · exact h
  · have hrest : Inv { s with reqs := rest } := h.of_sameSpec ⟨rfl, rfl, rfl, rfl, rfl, rfl, rfl, rfl⟩
    exact inv_requestStep hrest hr

/-- REFCFG meets R6. -/
theorem admissible_refcfg : Admissible refcfg where
  sw_ge := by decide
  w_ge := by decide
  w_round := by decide
  tps_pos := by decide
  bitT_even := by decide
  bitT_ge := by decide
  phaseT_lt := by decide
  lockDen_pos := by decide
  slotT_pos := by decide
  slotT_mult := by decide
  rxperT_mult := by decide
  rxperT_ge := by decide
  originT_lt := by decide
  distance := by decide +kernel

/-- Settles O7: `State.reset` is the reset state of REFCFG, an admissible configuration. -/
theorem resetMeetsInvariant : Obligations.ResetMeetsInvariant := inv_resetWith admissible_refcfg

end Sys2Proof.Machine
end

section
/-! PROOFS. The request word (30_encoding.md R61, R70, R75): what the decoder reads from a word of two fields, and that it
inverts the encoder. -/

namespace Sys2Proof.Machine

/-- Settles O2: the two fields of `op ++ arg` are `op` and `arg`, and the decoder reads nothing but these. -/
theorem decodeReadsCodeAndArgument : Obligations.DecodeReadsCodeAndArgument := by
  intro arg
  have hop (op : BitVec 4) : opOf (op ++ arg) = op := opOf_mkReq op arg
  have harg (op : BitVec 4) : argOf (op ++ arg) = arg := argOf_mkReq op arg
  simp [decode, hop, harg]

/-- The operand of `CFGWR` keeps its three bits when it stands in an argument (R61). -/
theorem extractLsb'_setWidth_arg (c : BitVec 3) : ((c.setWidth 64 : Arg).extractLsb' 0 3) = c := by
  rw [← BitVec.setWidth_eq_extractLsb' (by decide), BitVec.setWidth_setWidth_of_le _ (by decide), BitVec.setWidth_eq]

/-- Decoding the request word of an operation gives the operation back. -/
theorem decode_of_encode {i : Instr} {r : Req} (h : encode i = some r) : decode r = i := by
  cases i with
  | cfgwr c => cases h; simp [decode, extractLsb'_setWidth_arg]
  | nop | reset | sample | sampleskip | txload | clkload
  | reserved7 | reserved8 | reserved9 | reservedA | reservedB | reservedC | reservedD | reservedE | reservedF =>
    cases h; simp [decode]
  | clktick | txbit | winpush | classifySlope | classifyZc | accept | unsyncStep | bitout | syncdet | lock | lockedStep
  | framebit | framedone | syncerr | clkcorr | pad | bchenc | interleave | encode | frame | deinterleave | bchdec
  | decode | idlechk => cases h

/-- The encoder gives a decoded word its own request code again; only ignored argument bits can differ (U10). -/
theorem opOf_of_encode_decode {r q : Req} (h : encode (decode r) = some q) : opOf q = opOf r := by
  have hlt := (opOf r).isLt
  unfold decode at h
  split at h <;> cases h <;> rw [opOf_mkReq] <;> apply BitVec.eq_of_toNat_eq
  case h_16.refl => -- the last branch: the codes below 0xF are excluded
    simp only [imp_false] at *
    change 0xF = _
    omega
  all_goals exact Eq.symm ‹_›

/-- Settles O1: the encoder's word for a decoded operation exists, decodes back, and has the same code. -/
theorem decodeInvertsEncode : Obligations.DecodeInvertsEncode := by
  refine ⟨fun i r => decode_of_encode, fun r => ?_⟩
  obtain ⟨q, hq⟩ := Option.ne_none_iff_exists'.mp (encode_decode_ne_none r)
  exact ⟨q, hq, decode_of_encode hq, opOf_of_encode_decode hq⟩

/-- Settles O3: each word and each operand is a fixed value. -/
theorem writtenWordsDecode : Obligations.WrittenWordsDecode := by
  unfold Obligations.WrittenWordsDecode
  decide

end Sys2Proof.Machine
end

section
/-! PROOFS. The operand of `SAMPLE` (30_encoding.md R61) and the layout of a frame (R67). -/

namespace Sys2Proof.Machine

open Sys2Proof.Config

/-- `sext_N` of a bit sequence is the two's-complement value of its low `N` bits (00_scope.md R7). -/
theorem sext_toNat {m n : Nat} (hn : 1 ≤ n) (v : BitVec m) : sext n v.toNat = (v.setWidth n).toInt := by
  have hdouble : 2 ^ n = 2 * 2 ^ (n - 1) := by rw [← pow_succ', Nat.sub_add_cancel hn]
  have hsign : v.toNat % 2 ^ n < 2 ^ (n - 1) ↔ 2 * (v.toNat % 2 ^ n) < 2 ^ n := by omega
  simp [sext, zext, BitVec.toInt_eq_toNat_cond, hsign]

/-- Settles O4: a sample is `sext_SW` of the argument. -/
theorem sampleOperandIsTwosComplement : Obligations.SampleOperandIsTwosComplement :=
  fun _ arg hsw => ⟨fun _ => sext_toNat hsw arg, sext_range hsw arg.toNat⟩

/-- The sync bits are `SYNC11` three times (R67). -/
theorem bitAt_sync33 (K : Params) {i : Nat} (h : i < 33) : bitAt (sync33 K) i = bitAt K.sync11 (i % 11) := by
  have hsplit : bitAt (sync33 K) i = if i < 22 then bitAt (K.sync11 ++ K.sync11) i else bitAt K.sync11 (i - 22) :=
    bitAt_append _ _ i
  rw [hsplit, bitAt_append]
  rcases (by omega : i < 11 ∨ (11 ≤ i ∧ i < 22) ∨ 22 ≤ i) with h0 | ⟨h1, h2⟩ | h2
  · have hmod : i % 11 = i := by omega
    simp [h0, hmod, show i < 22 by omega]
  · have hmod : i % 11 = i - 11 := by omega
    simp [h2, hmod, Nat.not_lt.mpr h1]
  · have hmod : i % 11 = i - 22 := by omega
    simp [hmod, Nat.not_lt.mpr h2]

/-- The three parts of a frame: 33 sync bits, the marker, the coded bits (R67, 41_framer.md R133). -/
theorem bitAt_frame (K : Params) (x : Coded) (i : Nat) :
    bitAt (frame K x) i = if i < 33 then bitAt (sync33 K) i else if i = 33 then K.marker else bitAt x (i - 34) := by
  have hsplit : bitAt (frame K x) i
      = if i < 34 then bitAt (sync33 K ++ BitVec.ofBool K.marker) i else bitAt x (i - 34) := bitAt_append _ _ i
  rw [hsplit, bitAt_append]
  rcases lt_trichotomy i 33 with h | rfl | h
  · simp [h, show i < 34 by omega]
  · simp [bitAt]
  · simp [show ¬ i < 34 by omega, show ¬ i < 33 by omega, show i ≠ 33 by omega]

/-- Settles O23: `bitAt_frame` at the indices of each part. -/
theorem frameLayout : Obligations.FrameLayout := by
  intro K x
  refine ⟨fun i hi => ?_, ?_, fun n _ => ?_⟩
  · rw [bitAt_frame, if_pos hi, bitAt_sync33 K hi]
  · simp [bitAt_frame]
  · simp [bitAt_frame, show ¬ 34 + n < 33 by omega, show 34 + n ≠ 33 by omega]

end Sys2Proof.Machine
end

section
/-! PROOFS. The receive sequencer (40_demod.md R105-R107, R111): what each step does to the mode, the frame index and the
wait, and how many recovered bits it reports. -/

namespace Sys2Proof.Machine

/-! ### Unsynchronized: a recovered bit may lock -/

/-- A recovered bit leaves mode and frame index, or locks at index 33 (R103, R105). -/
theorem bitOut_mode_bidx (b : Bool) (l : Nat) (a : Int) (s : State) :
    ((bitOut b l a s).dem.mode = s.dem.mode ∧ (bitOut b l a s).dem.bidx = s.dem.bidx)
      ∨ ((bitOut b l a s).dem.mode = .locked ∧ (bitOut b l a s).dem.bidx = 33) := by
  rcases bitOut_cases b l a s with ⟨-, -, e⟩ | ⟨-, e⟩
  · rw [e]; exact .inr ⟨rfl, rfl⟩
  · rw [e]; exact .inl ⟨rfl, rfl⟩

theorem unsyncStep_mode_bidx (acc : Bool) (c : Change) (s : State) :
    ((unsyncStep acc c s).dem.mode = s.dem.mode ∧ (unsyncStep acc c s).dem.bidx = s.dem.bidx)
      ∨ ((unsyncStep acc c s).dem.mode = .locked ∧ (unsyncStep acc c s).dem.bidx = 33) := by
  rcases unsyncStep_cases acc c s with ⟨-, e⟩ | ⟨-, -, e⟩ | ⟨-, -, e⟩ <;> rw [e]
  · exact bitOut_mode_bidx _ _ _ _
  · exact bitOut_mode_bidx _ _ _ _
  · exact .inl ⟨rfl, rfl⟩

/-! ### Locked: one frame bit -/

@[simp] theorem storeFrameBit_thr (b : Bool) (d : Demod) : (storeFrameBit b d).thr = d.thr := by
  unfold storeFrameBit; split <;> rfl

@[simp] theorem frameBit_dem_bidx (b : Bool) (s : State) : (frameBit b s).dem.bidx = s.dem.bidx + 1 := by
  rcases frameBit_cases b s with ⟨-, e⟩ | ⟨-, e⟩ <;> simp [e]
@[simp] theorem frameBit_dem_wait (b : Bool) (s : State) : (frameBit b s).dem.wait = s.dem.wait := by
  rcases frameBit_cases b s with ⟨-, e⟩ | ⟨-, e⟩ <;> simp [e]
@[simp] theorem frameBit_dem_thr (b : Bool) (s : State) : (frameBit b s).dem.thr = s.dem.thr := by
  rcases frameBit_cases b s with ⟨-, e⟩ | ⟨-, e⟩ <;> simp [e]

/-- Only frame bit 183 ends the lock (R107, R108). -/
@[simp] theorem frameBit_dem_mode (b : Bool) (s : State) :
    (frameBit b s).dem.mode = if s.dem.bidx = 183 then .unsync else s.dem.mode := by
  rcases frameBit_cases b s with ⟨h, e⟩ | ⟨h, e⟩ <;> rw [storeFrameBit_bidx] at h
  · simp [e, show s.dem.bidx = 183 by omega]
  · simp [e, show s.dem.bidx ≠ 183 by omega]

/-- The end of a frame reports no recovered bit. -/
@[simp] theorem frameDone_rawbits (s : State) : (frameDone s).out.countP isRawbit = s.out.countP isRawbit := by
  rcases frameDone_cases s with ⟨-, h, -, -⟩ | ⟨g, -, -, -, -, h, -⟩ <;> simp [h, isRawbit]

@[simp] theorem frameBit_rawbits (b : Bool) (s : State) :
    (frameBit b s).out.countP isRawbit = s.out.countP isRawbit + 1 := by
  rcases frameBit_cases b s with ⟨-, e⟩ | ⟨-, e⟩ <;> simp [e, isRawbit]

/-! ### Locked: the step -/

@[simp] theorem trackLevel_dem_mode (acc : Bool) (c : Change) (s : State) :
    (trackLevel acc c s).dem.mode = s.dem.mode := by
  rcases trackLevel_cases acc c s with ⟨-, e⟩ | ⟨-, e⟩ <;> rw [e]
@[simp] theorem trackLevel_dem_bidx (acc : Bool) (c : Change) (s : State) :
    (trackLevel acc c s).dem.bidx = s.dem.bidx := by
  rcases trackLevel_cases acc c s with ⟨-, e⟩ | ⟨-, e⟩ <;> rw [e]
@[simp] theorem trackLevel_dem_thr (acc : Bool) (c : Change) (s : State) :
    (trackLevel acc c s).dem.thr = s.dem.thr := by
  rcases trackLevel_cases acc c s with ⟨-, e⟩ | ⟨-, e⟩ <;> rw [e]

/-- No locked step writes the threshold (R106). -/
@[simp] theorem lockedStep_dem_thr (acc : Bool) (c : Change) (s : State) :
    (lockedStep acc c s).dem.thr = s.dem.thr := by
  rcases lockedStep_cases acc c s with ⟨-, e⟩ | ⟨-, e⟩ <;> simp [e]

/-- Before the wait expires the sequencer stands still; at the expiry the wait is prolonged by one bit and one frame bit is
taken. Neither depends on the transition observed (R106, 70_reset_and_hazards.md R254). -/
theorem lockedStep_sequencer (acc : Bool) (c : Change) (s : State) :
    (0 < s.dem.wait ∧ (lockedStep acc c s).dem.wait = s.dem.wait ∧ (lockedStep acc c s).dem.bidx = s.dem.bidx
        ∧ (lockedStep acc c s).dem.mode = s.dem.mode)
      ∨ (s.dem.wait ≤ 0 ∧ (lockedStep acc c s).dem.wait = s.dem.wait + (s.K.bitT : Int)
        ∧ (lockedStep acc c s).dem.bidx = s.dem.bidx + 1
        ∧ (lockedStep acc c s).dem.mode = if s.dem.bidx = 183 then .unsync else s.dem.mode) := by
  rcases lockedStep_cases acc c s with ⟨h, e⟩ | ⟨h, e⟩ <;> rw [trackLevel_wait] at h
  · exact .inr (by simp [e, h])
  · exact .inl (by simp [e, h])

/-- A locked step reports one recovered bit per frame index it takes. -/
theorem lockedStep_rawbits (acc : Bool) (c : Change) (s : State) :
    s.dem.bidx + (lockedStep acc c s).out.countP isRawbit
      = (lockedStep acc c s).dem.bidx + s.out.countP isRawbit := by
  rcases lockedStep_cases acc c s with ⟨-, e⟩ | ⟨-, e⟩
  · simp [e]; omega
  · simp [e]

/-! ### SAMPLE and the other requests -/

theorem takeSample_of_unsync (x : Int) {s : State} (hm : s.dem.mode = .unsync) :
    takeSample x s = unsyncStep (observed (sampled x s)) (observe (sampled x s)) (sampled x s) := by
  have hu : (sampled x s).dem.mode = .unsync := by simpa using hm
  simp only [takeSample_eq_modeStep, modeStep, hu]

theorem takeSample_of_locked (x : Int) {s : State} (hm : s.dem.mode = .locked) :
    takeSample x s = lockedStep (observed (sampled x s)) (observe (sampled x s)) (sampled x s) := by
  have hu : (sampled x s).dem.mode = .locked := by simpa using hm
  simp only [takeSample_eq_modeStep, modeStep, hu]

/-- Unsynchronized, a `SAMPLE` leaves mode and frame index, or locks. -/
theorem takeSample_mode_bidx_of_unsync (x : Int) {s : State} (hm : s.dem.mode = .unsync) :
    ((takeSample x s).dem.mode = s.dem.mode ∧ (takeSample x s).dem.bidx = s.dem.bidx)
      ∨ ((takeSample x s).dem.mode = .locked ∧ (takeSample x s).dem.bidx = 33) := by
  rw [takeSample_of_unsync x hm]
  simpa using unsyncStep_mode_bidx (observed (sampled x s)) (observe (sampled x s)) (sampled x s)

/-- Locked, a `SAMPLE` counts the wait down by `TPS`, and an expiry takes one frame bit (R91, R106). -/
theorem takeSample_sequencer_of_locked (x : Int) {s : State} (hm : s.dem.mode = .locked) :
    (0 < s.dem.wait - (s.K.tps : Int) ∧ (takeSample x s).dem.wait = s.dem.wait - (s.K.tps : Int)
        ∧ (takeSample x s).dem.bidx = s.dem.bidx ∧ (takeSample x s).dem.mode = .locked)
      ∨ (s.dem.wait - (s.K.tps : Int) ≤ 0
        ∧ (takeSample x s).dem.wait = s.dem.wait - (s.K.tps : Int) + (s.K.bitT : Int)
        ∧ (takeSample x s).dem.bidx = s.dem.bidx + 1
        ∧ (takeSample x s).dem.mode = if s.dem.bidx = 183 then .unsync else .locked) := by
  rw [takeSample_of_locked x hm]
  simpa only [sampled_dem, sampled_K, hm]
    using lockedStep_sequencer (observed (sampled x s)) (observe (sampled x s)) (sampled x s)

/-- A clock tick reports no recovered bit. -/
@[simp] theorem clkTick_rawbits (s : State) : (clkTick s).out.countP isRawbit = s.out.countP isRawbit := by
  rcases clkTick_out s with e | ⟨b, e⟩ <;> simp [e, isRawbit]

/-- Locked, a `SAMPLE` reports one recovered bit per frame index it takes. -/
theorem takeSample_rawbits_of_locked (x : Int) {s : State} (hm : s.dem.mode = .locked) (ho : s.out = []) :
    s.dem.bidx + (takeSample x s).out.countP isRawbit = (takeSample x s).dem.bidx := by
  have h := lockedStep_rawbits (observed (sampled x s)) (observe (sampled x s)) (sampled x s)
  rw [← takeSample_of_locked x hm] at h
  simpa [ho] using h

/-- The requests as the sequencer sees them: all but `RESET` and `SAMPLE` leave it and report no recovered bit. -/
theorem RequestStep.sequencer {i : Instr} {s t : State} (h : RequestStep i s t) :
    (t.dem.mode = s.dem.mode ∧ t.dem.bidx = s.dem.bidx ∧ t.out.countP isRawbit = 0)
      ∨ (i = .reset ∧ t.dem.mode = .unsync ∧ t.dem.bidx = 0)
      ∨ ∃ arg, i = .sample arg ∧ t = takeSample (sampleOperand s.K arg) (beginRequest s) := by
  cases h with
  | reset => exact .inr (.inl ⟨rfl, rfl, rfl⟩)
  | sample arg => exact .inr (.inr ⟨arg, rfl, rfl⟩)
  | sampleskip => exact .inl ⟨by simp, by simp, clkTick_rawbits _⟩
  | nop | cfgwr | txload | clkload | reserved => exact .inl (by simp [reservedRequest])

/-! ### The statements -/

/-- Settles O55: only `RESET` and `SAMPLE` move the sequencer, and a `SAMPLE` does so as the step of its mode does. -/
theorem sequencerTransitionsAreExactlyThese : Obligations.SequencerTransitionsAreExactlyThese := by
  intro r s t hinv h
  rcases (requestStep_of_exec_decode h).sequencer with ⟨hm, hb, -⟩ | hreset | ⟨arg, hi, rfl⟩
  · exact .inl ⟨hm, hb⟩
  · exact .inr (.inl hreset)
  · cases hm : s.dem.mode with
    | unsync =>
      rcases takeSample_mode_bidx_of_unsync (sampleOperand s.K arg) (s := beginRequest s) hm with hstay | hlock
      · exact .inl (by simpa [hm] using hstay)
      · exact .inr (.inr ⟨⟨arg, hi⟩, .inl ⟨rfl, hlock⟩⟩)
    | locked =>
      have hle := (hinv.bidx_locked hm).2
      rcases takeSample_sequencer_of_locked (sampleOperand s.K arg) (s := beginRequest s) hm
        with ⟨-, -, hb, hm'⟩ | ⟨-, -, hb, hm'⟩
      · exact .inl ⟨hm', hb⟩
      · rw [beginRequest_dem] at hb hm'
        refine .inr (.inr ⟨⟨arg, hi⟩, .inr ?_⟩)
        by_cases hlast : s.dem.bidx = 183
        · exact .inr ⟨rfl, hlast, by simpa [hlast] using hm', by omega⟩
        · exact .inl ⟨rfl, by omega, by simpa [hlast] using hm', hb⟩

/-- Settles O57: the two cases of the locked step are told apart by the wait alone. -/
theorem lockedTimingIgnoresTheSignal : Obligations.LockedTimingIgnoresTheSignal := by
  intro s arg hm
  refine ⟨takeSample (sampleOperand s.K arg) (beginRequest s), rfl, ?_⟩
  have hthr : (takeSample (sampleOperand s.K arg) (beginRequest s)).dem.thr = s.dem.thr := by
    simp [takeSample_of_locked _ (s := beginRequest s) hm]
  have hend : (if s.dem.bidx = 183 then Mode.unsync else Mode.locked) = .unsync ↔ s.dem.bidx = 183 := by
    by_cases hlast : s.dem.bidx = 183 <;> simp [hlast]
  rcases takeSample_sequencer_of_locked (sampleOperand s.K arg) (s := beginRequest s) hm
    with ⟨hpos, hwait, hb, hm'⟩ | ⟨hneg, hwait, hb, hm'⟩
  · exact ⟨fun _ => ⟨hwait, hb, hm'⟩, fun hle => absurd hpos (not_lt.mpr hle), hthr⟩
  · exact ⟨fun hlt => absurd hlt (not_lt.mpr hneg), fun _ => ⟨hwait, hb, hm'.symm ▸ hend⟩, hthr⟩

/-- From a locked state, any request but `RESET` reports one recovered bit per frame index it takes, and leaves the lock only
with index 184. -/
theorem RequestStep.rawbits_of_locked {i : Instr} {s t : State} (h : RequestStep i s t) (hi : i ≠ .reset)
    (hm : s.dem.mode = .locked) :
    s.dem.bidx + t.out.countP isRawbit = t.dem.bidx ∧ (t.dem.mode = .unsync → t.dem.bidx = 184) := by
  rcases h.sequencer with ⟨hm', hb, hout⟩ | ⟨hreset, -⟩ | ⟨arg, -, rfl⟩
  · exact ⟨by omega, fun hu => by rw [hm', hm] at hu; cases hu⟩
  · exact absurd hreset hi
  · refine ⟨takeSample_rawbits_of_locked _ (s := beginRequest s) hm rfl, fun hu => ?_⟩
    rcases takeSample_sequencer_of_locked (sampleOperand s.K arg) (s := beginRequest s) hm
      with ⟨-, -, -, hm'⟩ | ⟨-, -, hb, hm'⟩
    · rw [hm'] at hu; cases hu
    · by_cases hlast : s.dem.bidx = 183
      · rw [hb, beginRequest_dem, hlast]
      · simp [hm', hlast] at hu

/-- A stream that performs completely performs its first request, and then the rest. -/
theorem perform_cons_some {r : Req} {rest : List Req} {s t : State} {ev : List Event}
    (h : perform (r :: rest) s = some (t, ev)) :
    ∃ u ev', exec (decode r) s = .next u ∧ perform rest u = some (t, ev') ∧ ev = u.out ++ ev' := by
  cases he : exec (decode r) s with
  | next u =>
    rw [perform_cons he] at h
    obtain ⟨⟨t', ev'⟩, hrest, heq⟩ := Option.map_eq_some_iff.mp h
    cases heq
    exact ⟨u, ev', rfl, hrest, rfl⟩
  | fault f => cases f
  | refused f => simp [perform, he] at h

/-- Along a stream of requests other than `RESET` that finds the block locked each time, one recovered bit is reported per
frame index. -/
theorem perform_rawbits_of_locked {rs : List Req} {s t : State} {ev : List Event}
    (hs : s.dem.mode = .unsync → s.dem.bidx = 184) (hr : ∀ r ∈ rs, decode r ≠ .reset)
    (h : perform rs s = some (t, ev))
    (hlock : ∀ k, k < rs.length → ∃ u, perform (rs.take k) s = some u ∧ u.1.dem.mode = .locked) :
    s.dem.bidx + ev.countP isRawbit = t.dem.bidx ∧ (t.dem.mode = .unsync → t.dem.bidx = 184) := by
  induction rs generalizing s ev with
  | nil => cases h; exact ⟨rfl, hs⟩
  | cons r rest ih =>
    obtain ⟨u, ev', he, hrest, rfl⟩ := perform_cons_some h
    have hm : s.dem.mode = .locked := by
      obtain ⟨_, hu, hm⟩ := hlock 0 (Nat.succ_pos _)
      cases hu; exact hm
    obtain ⟨hcount, hend⟩ := (requestStep_of_exec_decode he).rawbits_of_locked (hr r List.mem_cons_self) hm
    have hlock' (k : Nat) (hk : k < rest.length) :
        ∃ v, perform (rest.take k) u = some v ∧ v.1.dem.mode = .locked := by
      obtain ⟨⟨v, w⟩, hv, hvm⟩ := hlock (k + 1) (Nat.succ_lt_succ hk)
      obtain ⟨u', w', he', hv', -⟩ := perform_cons_some (rest := rest.take k) hv
      rw [he] at he'
      cases he'
      exact ⟨_, hv', hvm⟩
    obtain ⟨hcount', hend'⟩ := ih hend (fun q hq => hr q (List.mem_cons_of_mem r hq)) hrest hlock'
    rw [List.countP_append]
    exact ⟨by omega, hend'⟩

/-- Settles O56: a frame begins at index 33 and ends at 184. -/
theorem lockedFrameTakes151Bits : Obligations.LockedFrameTakes151Bits := by
  intro rs s t ev _ hm hb hr h hlock
  obtain ⟨hcount, hend⟩ := perform_rawbits_of_locked (fun hu => by rw [hm] at hu; cases hu) hr h hlock
  exact ⟨by omega, fun hu => by have := hend hu; omega⟩

/-- A mode step reports at most one recovered bit, and after one the telegram its frame may hold (R91, R107, R108). -/
theorem modeStep_out (acc : Bool) (c : Change) (s : State) :
    ∃ b r, (modeStep acc c s).out = s.out ++ b ++ r ∧ (b = [] ∨ ∃ x l, b = [.rawbit x l])
      ∧ (r = [] ∨ (b ≠ [] ∧ ∃ q, r = [.rxframe q])) := by
  rcases modeStep_effect acc c s with ⟨d, b, e, hb⟩ | ⟨-, d, x, l, e⟩
  · exact ⟨b, [], by simp [e], hb, .inl rfl⟩
  · rcases frameDone_cases { s with dem := d, out := s.out ++ [.rawbit x l] }
      with ⟨-, ho, -, -⟩ | ⟨g, -, -, -, -, ho, -⟩
    · exact ⟨[.rawbit x l], [], by rw [e, ho, List.append_nil], .inr ⟨x, l, rfl⟩, .inl rfl⟩
    · exact ⟨[.rawbit x l], _, by rw [e, ho], .inr ⟨x, l, rfl⟩, .inr ⟨List.cons_ne_nil _ _, _, rfl⟩⟩

/-- A `SAMPLE` reports at most one transmitted bit, then what the mode step reports (R91). -/
theorem takeSample_out (x : Int) (s : State) :
    ∃ a b r, (takeSample x s).out = s.out ++ a ++ b ++ r ∧ (a = [] ∨ ∃ y, a = [.txbit y])
      ∧ (b = [] ∨ ∃ y l, b = [.rawbit y l]) ∧ (r = [] ∨ (b ≠ [] ∧ ∃ q, r = [.rxframe q])) := by
  obtain ⟨b, r, hout, hb, hr⟩ := modeStep_out (observed (sampled x s)) (observe (sampled x s)) (sampled x s)
  rw [← takeSample_eq_modeStep, sampled_out] at hout
  rcases clkTick_out s with e | ⟨y, e⟩ <;> rw [e] at hout
  · exact ⟨[], b, r, by rw [hout, List.append_nil], .inl rfl, hb, hr⟩
  · exact ⟨[.txbit y], b, r, hout, .inr ⟨y, rfl⟩, hb, hr⟩

/-- Settles O59: a request begins with no event. -/
theorem sampleEventsComeInOrder : Obligations.SampleEventsComeInOrder := by
  intro s arg
  obtain ⟨a, b, r, hout, hev⟩ := takeSample_out (sampleOperand s.K arg) (beginRequest s)
  exact ⟨_, a, b, r, rfl, by simpa using hout, hev⟩

end Sys2Proof.Machine
end

section
/-! PROOFS. Each demodulator operation performed on its own (40_demod.md R91-R108): the next state it answers, field by
field. -/

namespace Sys2Proof.Machine

/-- Settles O6: each arm of the dispatch answers a next state, and a step is one arm or does nothing. -/
theorem everyOperationCompletes : Obligations.EveryOperationCompletes := by
  have hexec (i : Instr) (s : State) : ∃ t, exec i s = .next t := by
    cases i with
    | pad f => cases f <;> exact ⟨_, rfl⟩
    | _ => exact ⟨_, rfl⟩
  refine ⟨hexec, fun s => ?_⟩
  unfold SafeStep step
  split
  · exact ⟨s, rfl⟩
  · exact hexec _ _

/-! ### The phases of SAMPLE -/

/-- Settles O43: entry `i` of a moved array is entry `i + 1` of the old one. -/
theorem winpushShiftsTheWindow : Obligations.WinpushShiftsTheWindow := by
  intro s x hlen hw
  have hentry (i : Nat) : (winPush x s).dem.win[i]? = _ := getElem?_shiftIn s.dem.win x i
  refine ⟨winPush x s, rfl, ?_, fun i hi => ?_, ?_, rfl, ⟨rfl, rfl, rfl, rfl, rfl, rfl, rfl, rfl⟩, rfl⟩
  · have : (winPush x s).dem.win.length = s.dem.win.length - 1 + 1 := length_shiftIn _ _
    omega
  · rw [hentry, if_pos (by omega)]
  · rw [hentry, if_neg (by omega), if_pos (by omega)]

/-- A transition is accepted when it is found at the middle with a level above the threshold (R97). -/
theorem accept_iff {K : Config.Params} {c : Change} {thr : Nat} :
    accept K c thr = true ↔ c.found = true ∧ c.peak = mid K ∧ thr < c.level := by
  simp only [accept, Bool.and_eq_true, decide_eq_true_eq, and_assoc, gt_iff_lt]

/-- Settles O46: `accept_iff` at the value returned. -/
theorem acceptIsMiddleAndAboveThreshold : Obligations.AcceptIsMiddleAndAboveThreshold :=
  fun s c thr => ⟨accept s.K c thr, rfl, accept_iff⟩

/-- The state of a `SAMPLE` when a transition is looked for: the sample is in the window, the wait has not counted down yet
(R91). -/
def windowed (x : Int) (s : State) : State := winPush x (advanceTime (clkTick s))

theorem windowed_eq (x : Int) (s : State) :
    windowed x s = winPush x { clkTick s with dem := { (clkTick s).dem with t := (clkTick s).dem.t + s.K.tps } } := by
  simp only [windowed, advanceTime, clkTick_K]

/-- Counting down completes the phases before the mode step. -/
theorem countDown_windowed (x : Int) (s : State) :
    { windowed x s with dem := { (windowed x s).dem with wait := s.dem.wait - (s.K.tps : Int) } } = sampled x s := by
  simp [windowed, sampled, countDown, winPush, advanceTime]

theorem observe_sampled (x : Int) (s : State) :
    observe (sampled x s) = if dtypeZc s.cfg then classifyZc (windowed x s).dem.win
      else classifySlope (windowed x s).dem.win := by
  rw [← sampled_cfg x s]; rfl

/-- The threshold and the window of the test are those before the mode step (R91, R97). -/
theorem observed_sampled_iff (x : Int) (s : State) :
    observed (sampled x s) = true
      ↔ (windowed x s).dem.wfill = s.K.w ∧ accept s.K (observe (sampled x s)) s.dem.thr = true := by
  rw [← sampled_K x s, show s.dem.thr = (sampled x s).dem.thr by simp, observed, Bool.and_eq_true, decide_eq_true_iff]
  rfl

/-- Settles O53: the state after the window is `windowed`, and counting its wait down gives `sampled`. -/
theorem sampleRunsItsPhasesInOrder : Obligations.SampleRunsItsPhasesInOrder := by
  intro s arg
  have hcount := countDown_windowed (sampleOperand s.K arg) (beginRequest s)
  refine ⟨clkTick (beginRequest s), windowed (sampleOperand s.K arg) (beginRequest s), _, rfl, ?_, rfl, _, _,
    observe_sampled (sampleOperand s.K arg) (beginRequest s), observed_sampled_iff _ (beginRequest s),
    fun hm => ?_, fun hm => ?_⟩
  · rw [windowed_eq]; rfl
  · rw [takeSample_of_unsync _ (s := beginRequest s) hm, ← hcount]; rfl
  · rw [takeSample_of_locked _ (s := beginRequest s) hm, ← hcount]; rfl

/-- Settles O54: the clock tick leaves the demodulator (R92). -/
theorem sampleskipIsOneClockTick : Obligations.SampleskipIsOneClockTick := by
  intro s
  have hdem : (clkTick (beginRequest s)).dem = s.dem := clkTick_dem _
  exact ⟨clkTick (beginRequest s), rfl, by rw [← hdem]; rfl⟩

/-! ### The mode steps -/

/-- Settles O47: the three cases of the unsynchronized step exclude each other. -/
theorem unsyncStepTransitionBeforeExpiry : Obligations.UnsyncStepTransitionBeforeExpiry := by
  intro s c
  have hexec (acc : Bool) : exec (.unsyncStep acc c) s = .next (unsyncStep acc c s) := rfl
  refine ⟨rfl, fun hle => ?_, fun hlt => ?_, fun acc => ⟨_, hexec acc⟩⟩
  · rw [hexec]
    rcases unsyncStep_cases false c s with ⟨h, -⟩ | ⟨-, -, e⟩ | ⟨-, h, -⟩
    · cases h
    · rw [e]; rfl
    · omega
  · rw [hexec]
    rcases unsyncStep_cases false c s with ⟨h, -⟩ | ⟨-, h, -⟩ | ⟨-, -, e⟩
    · cases h
    · omega
    · rw [e]

/-- Settles O50: `s'` is the state after tracking. -/
theorem lockedStepTracksThenSamples : Obligations.LockedStepTracksThenSamples := by
  intro s acc c
  have hexec : exec (.lockedStep acc c) s = .next (lockedStep acc c s) := rfl
  refine ⟨trackLevel acc c s, ?_, ?_, fun hlt => ?_, fun hle => ?_, _, hexec⟩
  · rintro rfl; rfl
  · rintro rfl; rfl
  · rw [hexec]
    rcases lockedStep_cases acc c s with ⟨h, -⟩ | ⟨-, e⟩
    · rw [trackLevel_wait] at h; omega
    · rw [e]
  · rw [hexec]
    rcases lockedStep_cases acc c s with ⟨-, e⟩ | ⟨h, -⟩
    · rw [e, trackLevel_wait]; rfl
    · rw [trackLevel_wait] at h; omega

/-! ### The history and the lock -/

/-- Settles O48: `sr` is the history moved one place. -/
theorem bitoutShiftsHistoryAndLocks : Obligations.BitoutShiftsHistoryAndLocks := by
  intro s b l a
  have hnb : (pushHistory b l a s.dem).nb = 33 ↔ 33 ≤ s.dem.nb + 1 := by simp [pushHistory]
  have hdet : syncDet s.K (pushHistory b l a s.dem).sr = true ↔ ham (shiftBits s.dem.sr b) (sync33 s.K) ≤ 2 :=
    decide_eq_true_iff
  refine ⟨shiftBits s.dem.sr b, bitOut b l a s, fun i hi => ?_, ?_, rfl, ?_⟩
  · simp [bitAt_shiftBits, show i < 33 by omega, show i ≠ 32 by omega]
  · simp [bitAt_shiftBits]
  rcases bitOut_cases b l a s with ⟨h33, hsync, e⟩ | ⟨hno, e⟩
  · refine ⟨fun hge _ => ?_, fun h => absurd ⟨hnb.mp h33, hdet.mp hsync⟩ h⟩
    have hpush : pushHistory b l a s.dem = { s.dem with
        sr := shiftBits s.dem.sr b, hl := s.dem.hl.drop 1 ++ [l], hw := s.dem.hw.drop 1 ++ [a], nb := 33 } := by
      simp only [pushHistory, shiftIn, min_eq_left hge]
    rw [e, hpush]
    rfl
  · rw [hnb, hdet] at hno
    exact ⟨fun h33 hsync => absurd ⟨h33, hsync⟩ hno, fun _ => e⟩

/-- No arrival time is farther from its nominal one than the jitter (R105). -/
theorem le_jitterFrom (K : Config.Params) (origin : Int) (k : Nat) (hw : List Int) {j : Nat} (hj : j < hw.length) :
    |hw.getD j 0 - (origin + (((k + j : Nat) : Int) - 16) * (K.bitT : Int))| ≤ (jitterFrom K origin k hw : Int) := by
  induction hw generalizing k j with
  | nil => cases hj
  | cons a rest ih =>
    simp only [jitterFrom, Nat.cast_max, Int.natCast_natAbs]
    cases j with
    | zero => exact le_max_left _ _
    | succ j =>
      have h := ih (k + 1) (Nat.lt_of_succ_lt_succ hj)
      rw [Nat.add_right_comm] at h
      exact h.trans (le_max_right _ _)

/-- The jitter is the distance of some arrival time. -/
theorem exists_eq_jitterFrom (K : Config.Params) (origin : Int) (k : Nat) {hw : List Int} (hne : hw ≠ []) :
    ∃ j, j < hw.length
      ∧ |hw.getD j 0 - (origin + (((k + j : Nat) : Int) - 16) * (K.bitT : Int))| = (jitterFrom K origin k hw : Int) := by
  induction hw generalizing k with
  | nil => exact absurd rfl hne
  | cons a rest ih =>
    simp only [jitterFrom, Nat.cast_max, Int.natCast_natAbs]
    rcases le_total (jitterFrom K origin (k + 1) rest : Int) |a - (origin + ((k : Int) - 16) * (K.bitT : Int))|
      with h | h
    · exact ⟨0, Nat.succ_pos _, (max_eq_left h).symm⟩
    · cases rest with
      | nil => exact ⟨0, Nat.succ_pos _, (max_eq_left (by simp [jitterFrom])).symm⟩
      | cons b rest =>
        obtain ⟨j, hj, e⟩ := ih (k + 1) (List.cons_ne_nil b rest)
        rw [Nat.add_right_comm] at e
        exact ⟨j + 1, Nat.succ_lt_succ hj, e.trans (max_eq_right h).symm⟩

/-- Settles O49: the two means are floor divisions by 33. -/
theorem lockMeasuresTheSyncBits : Obligations.LockMeasuresTheSyncBits := by
  intro s hhw hhl
  have hjit : (lock s).dem.jit = jitterFrom s.K (lock s).dem.origin 0 s.dem.hw := rfl
  have horigin : (lock s).dem.origin = s.dem.hw.sum / 33 := rfl
  have hlevel : (lock s).dem.syncLevel = s.dem.hl.sum / 33 := rfl
  refine ⟨lock s, rfl, by omega, by omega, by omega, by omega, fun k hk => ?_, ?_, rfl, rfl, rfl, rfl,
    ⟨rfl, rfl, rfl, rfl, rfl, rfl, rfl, rfl⟩, rfl⟩
  · simpa [hjit] using le_jitterFrom s.K (lock s).dem.origin 0 s.dem.hw (hhw.symm ▸ hk)
  · have hne : s.dem.hw ≠ [] := List.ne_nil_of_length_eq_add_one hhw
    simpa [hjit, hhw] using exists_eq_jitterFrom s.K (lock s).dem.origin 0 hne

/-! ### The frame -/

/-- Coded bit `bidx - 34` is written and no other changes (R107). -/
theorem bitAt_writeFb {d : Demod} (h : 34 ≤ d.bidx ∧ d.bidx < 184) (b : Bool) {n : Nat} (hn : n < 150) :
    bitAt (writeFb d b) n = if n = d.bidx - 34 then b else bitAt d.fb n := by
  simp [writeFb, h, bitAt_setBitAt, hn]

/-- Settles O51: `d` is the demodulator state with the bit stored. -/
theorem framebitStoresMarkerAndCodedBits : Obligations.FramebitStoresMarkerAndCodedBits := by
  intro s b hlo hhi
  have hexec : exec (.framebit b) s = .next (frameBit b s) := rfl
  refine ⟨storeFrameBit b s.dem, fun h => ?_, fun h => ?_, fun h => ?_, fun h => ?_, _, hexec⟩
  · simp [storeFrameBit, h]
  · have hstore : storeFrameBit b s.dem = { s.dem with fb := writeFb s.dem b, bidx := s.dem.bidx + 1 } :=
      if_neg (by omega)
    rw [hstore]
    exact ⟨rfl, fun n => bitAt_writeFb ⟨h, by omega⟩ b⟩
  · rcases frameBit_cases b s with ⟨hlast, -⟩ | ⟨-, e⟩
    · rw [storeFrameBit_bidx] at hlast; omega
    · rw [hexec, e]
  · rcases frameBit_cases b s with ⟨-, e⟩ | ⟨hmore, -⟩
    · rw [hexec, e]; rfl
    · rw [storeFrameBit_bidx] at hmore; omega

@[simp] theorem bitAt_zero (n i : Nat) : bitAt (0#n) i = false := by simp [bitAt]

@[simp] theorem bitAt_allOnes {n i : Nat} (h : i < n) : bitAt (BitVec.allOnes n) i = true := by
  rw [bitAt_eq_getLsbD _ h, BitVec.getLsbD_allOnes]
  exact decide_eq_true (by omega)

/-- An all-identical payload is all zeros or all ones (42_codec.md R161). -/
theorem idleChk_iff (p : Payload) : idleChk p = true ↔ p = 0#64 ∨ p = BitVec.allOnes 64 := by
  have hzero : p = 0#64 ↔ ∀ i < 64, bitAt p i = false :=
    ⟨fun h i _ => h ▸ bitAt_zero 64 i, fun h => eq_of_bitAt fun i hi => (h i hi).trans (bitAt_zero 64 i).symm⟩
  have hones : p = BitVec.allOnes 64 ↔ ∀ i < 64, bitAt p i = true :=
    ⟨fun h i hi => h ▸ bitAt_allOnes hi, fun h => eq_of_bitAt fun i hi => (h i hi).trans (bitAt_allOnes hi).symm⟩
  rw [hzero, hones]
  simp [idleChk]

/-- An uncorrectable frame (60_exceptions.md F3). -/
theorem frameDone_of_uncorrectable {s : State} (h : decodeTelegram s.K s.dem.fb = none) :
    frameDone s = { s with
      dem := { s.dem with mode := .unsync, nb := 0, skipseen := false }, stat := .uncorrectable } := by
  simp [frameDone, settleFrame, h, clearSkip]

/-- A frame discarded as all-identical (F4). -/
theorem frameDone_of_idle {s : State} {g : Telegram} (h : decodeTelegram s.K s.dem.fb = some g)
    (hi : idleChk (unpadPayload g.info) = true) :
    frameDone s = { s with
      dem := { s.dem with mode := .unsync, nb := 0, skipseen := false }, stat := .idleDiscard } := by
  simp [frameDone, settleFrame, h, hi, clearSkip]

/-- An accepted frame: its results are measured before the demodulator is cleared, and written and reported together
(R108). -/
theorem frameDone_of_accepted {s : State} {g : Telegram} (h : decodeTelegram s.K s.dem.fb = some g)
    (hi : idleChk (unpadPayload g.info) = false) :
    frameDone s = { s with
      dem := { s.dem with mode := .unsync, nb := 0, skipseen := false }
      stat := acceptedStat (rxResultOf s g).errcnt
      rx := rxResultOf s g
      clk := if corrEn s.cfg && !s.dem.skipseen then (clkCorr (rxResultOf s g).syncerr s).clk else s.clk
      out := s.out ++ [.rxframe (rxResultOf s g)] } := by
  simp only [frameDone, settleFrame, h, hi, acceptTelegram_eq]
  rfl

/-- Settles O52: the three outcomes of a complete frame, each as one equation. -/
theorem framedoneRejectsDiscardsOrAccepts : Obligations.FramedoneRejectsDiscardsOrAccepts := by
  intro s
  have hexec : exec .framedone s = .next (frameDone s) := rfl
  refine ⟨fun h => by rw [hexec, frameDone_of_uncorrectable h], fun g h => ⟨fun hi => ?_, fun hi => ?_⟩⟩
  · rw [hexec, frameDone_of_idle h ((idleChk_iff _).mpr hi)]
  · rw [← idleChk_iff, Bool.not_eq_true] at hi
    refine ⟨rxResultOf s g, _, by rw [hexec, frameDone_of_accepted h hi]; rfl, fun n hn => ?_, fun n hn => ?_,
      fun n hn => ?_, rfl, rfl, rfl, rfl, rfl, fun hs => ?_, fun hs => ?_, fun hc hs => ?_, fun hn => ?_⟩
    · simp [rxResultOf, unpadPayload, bitAt_slice, hn]
    · simp [rxResultOf, unpadPayload, opcodeOf, bitAt_slice, hn, show n < 64 by omega]
    · simp [rxResultOf, unpadPad, bitAt_slice, hn]
    · simp [rxResultOf, hs]
    · simp [rxResultOf, hs]
    · rw [if_pos (by simp [corrEn, hc, hs])]; rfl
    · exact if_neg (by simpa [corrEn] using hn)

end Sys2Proof.Machine
end

section
/-! PROOFS. The two classifiers (40_demod.md R93, R95, R96): the pairs of a window by index, the first of the largest steps, the
spread, and what a constant offset does to them. -/

namespace Sys2Proof.Machine

/-! ### The pairs of a window -/

/-- The pair whose newer sample has index `i`. -/
def pairAt (win : List Int) (i : Nat) : Pair := { idx := i, old := win.getD (i - 1) 0, new := win.getD i 0 }

theorem size_pairAt (win : List Int) (i : Nat) :
    ((pairAt win i).size : Int) = |win.getD i 0 - win.getD (i - 1) 0| := Int.natCast_natAbs _

theorem size_pairAt_le_iff {win : List Int} {i j : Nat} : (pairAt win j).size ≤ (pairAt win i).size
    ↔ |win.getD j 0 - win.getD (j - 1) 0| ≤ |win.getD i 0 - win.getD (i - 1) 0| := by
  rw [← size_pairAt, ← size_pairAt, Int.ofNat_le]

theorem size_pairAt_lt_iff {win : List Int} {i j : Nat} : (pairAt win j).size < (pairAt win i).size
    ↔ |win.getD j 0 - win.getD (j - 1) 0| < |win.getD i 0 - win.getD (i - 1) 0| := by
  rw [← size_pairAt, ← size_pairAt, Int.ofNat_lt]

theorem size_pairAt_pos_iff {win : List Int} {i : Nat} :
    0 < (pairAt win i).size ↔ win.getD i 0 ≠ win.getD (i - 1) 0 := by
  rw [Pair.size, Int.natAbs_pos, sub_ne_zero]
  rfl

theorem crosses_pairAt_iff {win : List Int} {i : Nat} :
    (pairAt win i).crosses = true ↔ ¬(win.getD (i - 1) 0 < 0 ↔ win.getD i 0 < 0) := by
  rw [Pair.crosses, bne_iff_ne, ne_eq, decide_eq_decide]
  rfl

theorem pairsFrom_eq_map (i0 : Nat) (win : List Int) :
    pairsFrom i0 win = (List.range (win.length - 1)).map fun k =>
      { idx := i0 + k, old := win.getD k 0, new := win.getD (k + 1) 0 } := by
  induction win generalizing i0 with
  | nil => rfl
  | cons a rest ih =>
    cases rest with
    | nil => rfl
    | cons b rest =>
      simp only [pairsFrom, ih (i0 + 1), List.length_cons, Nat.add_sub_cancel, List.range_succ_eq_map, List.map_cons,
        List.map_map]
      congr 2
      funext k
      simp [Nat.add_assoc, Nat.add_comm 1 k]

/-- The pairs are those of the indices `1 .. W-1`, in this order (R95). -/
theorem pairs_eq_map (win : List Int) : pairs win = (List.range (win.length - 1)).map fun k => pairAt win (k + 1) := by
  rw [pairs, pairsFrom_eq_map]
  simp only [pairAt, Nat.add_sub_cancel, Nat.add_comm 1]

theorem mem_pairs {win : List Int} {p : Pair} :
    p ∈ pairs win ↔ ∃ i, 1 ≤ i ∧ i < win.length ∧ p = pairAt win i := by
  rw [pairs_eq_map]
  constructor
  · intro h
    obtain ⟨k, hk, rfl⟩ := List.mem_map.mp h
    exact ⟨k + 1, Nat.succ_pos k, by have := List.mem_range.mp hk; omega, rfl⟩
  · rintro ⟨i, hi, hlt, rfl⟩
    exact List.mem_map.mpr ⟨i - 1, List.mem_range.mpr (by omega), by rw [Nat.sub_add_cancel hi]⟩

theorem pairs_pairwise_idx (win : List Int) : (pairs win).Pairwise fun p q => p.idx < q.idx := by
  rw [pairs_eq_map, List.pairwise_map]
  exact List.pairwise_lt_range.imp fun h => Nat.succ_lt_succ h

/-! ### The first of the largest steps -/

/-- Among some pairs one has the largest step. -/
theorem exists_size_eq_maxSize {ps : List Pair} (h : ps ≠ []) : ∃ p ∈ ps, p.size = maxSize ps := by
  have hmax : maxSize ps = (ps.map Pair.size).foldl max 0 := by rw [maxSize, List.foldl_map]
  obtain ⟨hmem, hle⟩ := List.max?_eq_some_iff.mp (List.max?_cons' (x := 0) (xs := ps.map Pair.size))
  rw [← hmax] at hmem hle
  rcases List.mem_cons.mp hmem with hzero | hmem
  · obtain ⟨p, hp⟩ := List.exists_mem_of_ne_nil ps h
    have hsize := hle p.size (List.mem_cons_of_mem _ (List.mem_map_of_mem hp))
    exact ⟨p, hp, by omega⟩
  · exact List.mem_map.mp hmem

theorem steepest_eq_none {ps : List Pair} : steepest ps = none ↔ ps = [] := by
  constructor
  · intro h
    by_contra hne
    obtain ⟨p, hp, hsize⟩ := exists_size_eq_maxSize hne
    exact List.find?_eq_none.mp h p hp (decide_eq_true hsize)
  · rintro rfl; rfl

/-- A pair before the steepest one, the pairs being in the order of their indices, is less steep. -/
theorem size_lt_of_idx_lt_steepest {ps : List Pair} {p q : Pair} (hord : ps.Pairwise fun p q => p.idx < q.idx)
    (h : steepest ps = some p) (hq : q ∈ ps) (hlt : q.idx < p.idx) : q.size < p.size := by
  obtain ⟨-, hp, as, bs, rfl, hfirst⟩ := steepest_some h
  have hmem : q ∈ as := by
    rcases List.mem_append.mp hq with hq | hq
    · exact hq
    · have hafter := (List.pairwise_cons.mp (List.pairwise_append.mp hord).2.1).1
      rcases List.mem_cons.mp hq with rfl | hq
      · exact absurd hlt (lt_irrefl _)
      · exact absurd hlt (hafter q hq).asymm
  have hle := size_le_maxSize hq
  have hne := hfirst q hmem
  omega

/-- The pair found among those of a window that have a property: no such pair is steeper, and none before it is as steep. -/
theorem steepest_filter_pairs {win : List Int} {P : Pair → Bool} {p : Pair}
    (h : steepest ((pairs win).filter P) = some p) :
    ∃ i, 1 ≤ i ∧ i < win.length ∧ p = pairAt win i ∧ P (pairAt win i) = true
      ∧ (∀ j, 1 ≤ j → j < win.length → P (pairAt win j) = true → (pairAt win j).size ≤ (pairAt win i).size)
      ∧ ∀ j, 1 ≤ j → j < i → P (pairAt win j) = true → (pairAt win j).size < (pairAt win i).size := by
  obtain ⟨hmem, hsize, -⟩ := steepest_some h
  obtain ⟨hpairs, hP⟩ := List.mem_filter.mp hmem
  obtain ⟨i, hi, hlt, rfl⟩ := mem_pairs.mp hpairs
  have hcand {j : Nat} (hj : 1 ≤ j) (hjlt : j < win.length) (hPj : P (pairAt win j) = true) :
      pairAt win j ∈ (pairs win).filter P := List.mem_filter.mpr ⟨mem_pairs.mpr ⟨j, hj, hjlt, rfl⟩, hPj⟩
  refine ⟨i, hi, hlt, rfl, hP, fun j hj hjlt hPj => ?_, fun j hj hji hPj => ?_⟩
  · exact (size_le_maxSize (hcand hj hjlt hPj)).trans_eq hsize.symm
  · exact size_lt_of_idx_lt_steepest ((pairs_pairwise_idx win).filter P) h (hcand hj (hji.trans hlt) hPj) hji

/-! ### The spread -/

/-- The spread is the largest sample minus the smallest (R93). -/
theorem spread_eq {win : List Int} (h : win ≠ []) :
    ∃ x ∈ win, ∃ y ∈ win, (spread win : Int) = x - y ∧ ∀ z ∈ win, y ≤ z ∧ z ≤ x := by
  cases win with
  | nil => exact absurd rfl h
  | cons a rest =>
    obtain ⟨hmax, hle⟩ := List.max?_eq_some_iff.mp (List.max?_cons' (x := a) (xs := rest))
    obtain ⟨hmin, hge⟩ := List.min?_eq_some_iff.mp (List.min?_cons' (x := a) (xs := rest))
    refine ⟨_, hmax, _, hmin, ?_, fun z hz => ⟨hge z hz, hle z hz⟩⟩
    have := hle _ hmin
    simp only [spread]
    omega

/-! ### A constant offset -/

/-- A pair of a window with `k` added to every sample. -/
def Pair.offset (k : Int) (p : Pair) : Pair := { p with old := p.old + k, new := p.new + k }

@[simp] theorem size_offset (k : Int) (p : Pair) : (p.offset k).size = p.size := by
  simp [Pair.size, Pair.offset]

theorem pairsFrom_map_add (k : Int) (i0 : Nat) (win : List Int) :
    pairsFrom i0 (win.map (· + k)) = (pairsFrom i0 win).map (Pair.offset k) := by
  induction win generalizing i0 with
  | nil => rfl
  | cons a rest ih =>
    cases rest with
    | nil => rfl
    | cons b rest =>
      have h := ih (i0 + 1)
      simp only [List.map_cons, pairsFrom] at h ⊢
      rw [h]
      rfl

@[simp] theorem maxSize_map_offset (k : Int) (ps : List Pair) : maxSize (ps.map (Pair.offset k)) = maxSize ps := by
  simp [maxSize, List.foldl_map]

@[simp] theorem steepest_map_offset (k : Int) (ps : List Pair) :
    steepest (ps.map (Pair.offset k)) = (steepest ps).map (Pair.offset k) := by
  simp only [steepest, maxSize_map_offset, List.find?_map]
  congr 2
  funext p
  simp

@[simp] theorem spread_map_add (k : Int) (win : List Int) : spread (win.map (· + k)) = spread win := by
  cases win with
  | nil => rfl
  | cons a rest =>
    simp only [List.map_cons, spread, List.foldl_map]
    rw [List.foldl_hom (· + k) (g₁ := max) fun x y => max_add_add_right x y k,
      List.foldl_hom (· + k) (g₁ := min) fun x y => min_add_add_right x y k, add_sub_add_right_eq_sub]

/-- The slope classifier sees no offset (R95). -/
theorem classifySlope_map_add (k : Int) (win : List Int) : classifySlope (win.map (· + k)) = classifySlope win := by
  have hnone : noChange (win.map (· + k)) = noChange win := by simp [noChange]
  have hpairs : pairs (win.map (· + k)) = (pairs win).map (Pair.offset k) := pairsFrom_map_add k 1 win
  unfold classifySlope
  rw [hnone, hpairs, maxSize_map_offset, steepest_map_offset, spread_map_add]
  cases steepest (pairs win) with
  | none => rfl
  | some p => simp [Pair.offset]

/-! ### The two results -/

/-- The slope classifier finds nothing when no pair has a step, else the steepest pair (R95). -/
theorem classifySlope_cases (win : List Int) :
    (maxSize (pairs win) = 0 ∧ classifySlope win = noChange win)
      ∨ ∃ p, steepest (pairs win) = some p ∧ 0 < maxSize (pairs win) ∧ classifySlope win
          = { found := true, peak := p.idx, pol := decide (p.new - p.old > 0), level := spread win } := by
  by_cases hmax : maxSize (pairs win) = 0
  · exact .inl ⟨hmax, if_pos hmax⟩
  · cases hp : steepest (pairs win) with
    | none => rw [steepest_eq_none.mp hp] at hmax; exact absurd rfl hmax
    | some p => exact .inr ⟨p, rfl, Nat.pos_of_ne_zero hmax, by simp [classifySlope, hmax, hp]⟩

/-- The zero-crossing classifier finds nothing when no pair crosses, else the steepest that does (R96). -/
theorem classifyZc_cases (win : List Int) :
    (crossings win = [] ∧ classifyZc win = noChange win)
      ∨ ∃ p, steepest (crossings win) = some p ∧ classifyZc win
          = { found := true, peak := p.idx, pol := decide (p.new ≥ 0), level := spread win } := by
  cases hp : steepest (crossings win) with
  | none => exact .inl ⟨steepest_eq_none.mp hp, by simp [classifyZc, hp]⟩
  | some p => exact .inr ⟨p, rfl, by simp [classifyZc, hp]⟩

/-- Settles O44: all pairs are candidates, and one is found when the largest step is not 0. -/
theorem slopeClassifierFindsLargestStep : Obligations.SlopeClassifierFindsLargestStep := by
  intro s win hlen
  have hne : win ≠ [] := List.ne_nil_of_length_pos (by omega)
  have hoffset (k : Int) : exec (.classifySlope (win.map (· + k))) s
      = .next { s with ret := .change (classifySlope win) } := by
    rw [← classifySlope_map_add k win]; rfl
  refine ⟨classifySlope win, rfl, ?_⟩
  rcases classifySlope_cases win with ⟨hmax, e⟩ | ⟨p, hp, hmax, e⟩ <;> rw [e] at hoffset ⊢
  · have hflat : ¬ ∃ i, 1 ≤ i ∧ i < win.length ∧ win.getD i 0 ≠ win.getD (i - 1) 0 := by
      rintro ⟨i, hi, hlt, hstep⟩
      have hle := size_le_maxSize (mem_pairs.mpr ⟨i, hi, hlt, rfl⟩)
      have hpos := size_pairAt_pos_iff.mpr hstep
      omega
    exact ⟨iff_of_false Bool.false_ne_true hflat, nofun, fun _ => ⟨rfl, rfl⟩, spread_eq hne, hoffset⟩
  · have hall : steepest ((pairs win).filter fun _ => true) = some p := by rw [List.filter_true]; exact hp
    obtain ⟨i, hi, hlt, rfl, -, hlargest, hfirst⟩ := steepest_filter_pairs hall
    rw [← (steepest_some hp).2.1] at hmax
    have hstep := size_pairAt_pos_iff.mp hmax
    exact ⟨iff_of_true rfl ⟨i, hi, hlt, hstep⟩,
      fun _ => ⟨hi, hlt, fun j hj hjlt => size_pairAt_le_iff.mp (hlargest j hj hjlt rfl),
        fun j hj hji => size_pairAt_lt_iff.mp (hfirst j hj hji rfl), decide_eq_true_iff.trans sub_pos⟩,
      nofun, spread_eq hne, hoffset⟩

/-- Settles O45: the candidates are the pairs that cross zero. -/
theorem zcClassifierFindsLargestCrossing : Obligations.ZcClassifierFindsLargestCrossing := by
  intro s win hlen
  have hne : win ≠ [] := List.ne_nil_of_length_pos (by omega)
  refine ⟨classifyZc win, rfl, ?_⟩
  rcases classifyZc_cases win with ⟨hempty, e⟩ | ⟨p, hp, e⟩ <;> rw [e]
  · have hnone : ¬ ∃ i, 1 ≤ i ∧ i < win.length ∧ ¬(win.getD (i - 1) 0 < 0 ↔ win.getD i 0 < 0) := by
      rintro ⟨i, hi, hlt, hcross⟩
      exact List.filter_eq_nil_iff.mp hempty _ (mem_pairs.mpr ⟨i, hi, hlt, rfl⟩) (crosses_pairAt_iff.mpr hcross)
    exact ⟨iff_of_false Bool.false_ne_true hnone, nofun, fun _ => ⟨rfl, rfl⟩, spread_eq hne⟩
  · obtain ⟨i, hi, hlt, rfl, hcross, hlargest, hfirst⟩ := steepest_filter_pairs hp
    have hcross' := crosses_pairAt_iff.mp hcross
    exact ⟨iff_of_true rfl ⟨i, hi, hlt, hcross'⟩,
      fun _ => ⟨hi, hlt, hcross',
        fun j hj hjlt hc => size_pairAt_le_iff.mp (hlargest j hj hjlt (crosses_pairAt_iff.mpr hc)),
        fun j hj hji hc => size_pairAt_lt_iff.mp (hfirst j hj hji (crosses_pairAt_iff.mpr hc)), decide_eq_true_iff⟩,
      nofun, spread_eq hne⟩

end Sys2Proof.Machine
end

section
/-! PROOFS. The framer (41_framer.md): which windows the sync detector accepts (R132, R137), and the transmit side: how
`TXLOAD` makes a frame pending (R134) and how a pending frame goes out (R135). -/

namespace Sys2Proof.Machine

open Sys2Proof.Config

/-! ### Sync detection -/

/-- `ham` as the size of the set of indices at which two sequences differ (00_scope.md R7). -/
theorem ham_eq_card {n : Nat} (a b : BitVec n) :
    ham a b = ((Finset.range n).filter fun i => bitAt a i ≠ bitAt b i).card := by
  rw [ham_eq_countP, ← Nat.count_eq_card_filter_range]
  exact List.countP_congr fun _ _ => by simp

theorem bitAt_not {n : Nat} (v : BitVec n) {i : Nat} (h : i < n) : bitAt (~~~v) i = !bitAt v i := by
  simp [bitAt, h]

/-- An inverted sequence differs from the sequence everywhere (R137). -/
theorem ham_not_self {n : Nat} (a : BitVec n) : ham (~~~a) a = n := by
  have hall : ∀ i ∈ Finset.range n, bitAt (~~~a) i ≠ bitAt a i := fun i hi => by
    simp [bitAt_not a (Finset.mem_range.mp hi)]
  rw [ham_eq_card, Finset.filter_true_of_mem hall, Finset.card_range]

/-- A window is detected when it is within distance 2 of the pattern (R131). -/
theorem syncDet_iff {K : Params} {w : SyncWindow} : syncDet K w = true ↔ ham w (sync33 K) ≤ 2 := decide_eq_true_iff

/-- The distance of a window from the pattern counts the places where it differs from `SYNC11` three times over. -/
theorem ham_sync33 (K : Params) (w : SyncWindow) :
    ham w (sync33 K) = ((Finset.range 33).filter fun i => bitAt w i ≠ bitAt K.sync11 (i % 11)).card := by
  rw [ham_eq_card]
  congr 1
  exact Finset.filter_congr fun i hi => by rw [bitAt_sync33 K (Finset.mem_range.mp hi)]

/-- Settles O22: the distance of a window counts its differences from the repeated `SYNC11`, and that of the inverted
pattern is 33. -/
theorem syncDetectionTolerance : Obligations.SyncDetectionTolerance := by
  intro K
  have hinverted : ham (~~~(sync33 K)) (sync33 K) = 33 := ham_not_self _
  refine ⟨fun w => by rw [syncDet_iff, ham_sync33], hinverted, ?_⟩
  rw [Bool.eq_false_iff, ne_eq, syncDet_iff, hinverted]
  decide

/-- Settles O24: both are internal functions, which only set the returned value. -/
theorem syncdetAndFrameReturnTheirValues : Obligations.SyncdetAndFrameReturnTheirValues :=
  fun _ _ _ => ⟨rfl, rfl⟩

/-! ### Transmission -/

/-- Settles O25: `txLoad_cases` after the request has begun. -/
theorem txloadQueuesOrDrops : Obligations.TxloadQueuesOrDrops := by
  intro s p
  refine ⟨txLoad p (beginRequest s), rfl, by simp, ?_⟩
  rcases txLoad_cases p (beginRequest s) with ⟨hp, h⟩ | ⟨hp, h⟩
  · have hpending : s.tx.pend = true := hp
    simp [h, hpending, SameSpec]
  · have hfree : s.tx.pend = false := hp
    simp [h, hfree, SameSpec]

/-- A pending frame starts at its boundary and its bit 0 goes out (R135). -/
theorem txBoundary_of_starts {s : State} (hp : s.tx.pend = true) (ha : s.tx.act = false)
    (hq : bitPeriodIndex s = s.K.txoffBits) :
    txBoundary s = { s with
      tx := { txn := s.tx.txn, pend := false, txf := s.tx.txn, act := true, idx := 1, bit := bitAt s.tx.txn 0 }
      out := s.out ++ [.txbit (bitAt s.tx.txn 0)] } := by
  rcases startPending_cases s with ⟨-, -, -, hstart⟩ | ⟨hno, -⟩
  · rcases txBoundary_cases s with ⟨-, h⟩ | ⟨hidle, -⟩
    · simp [h, hstart, readTxf]
    · rw [hstart] at hidle; cases hidle
  · exact absurd ⟨hp, ha, hq⟩ hno

/-- The frame being sent gives its next bit and ends with bit 183 (R135). -/
theorem txBoundary_of_active {s : State} (ha : s.tx.act = true) (hi : s.tx.idx < 184) :
    txBoundary s = { s with
      tx := { s.tx with bit := bitAt s.tx.txf s.tx.idx, idx := s.tx.idx + 1, act := decide (s.tx.idx ≠ 183) }
      out := s.out ++ [.txbit (bitAt s.tx.txf s.tx.idx)] } := by
  rcases startPending_cases s with ⟨-, hna, -, -⟩ | ⟨-, hsame⟩
  · rw [ha] at hna; cases hna
  · rcases txBoundary_cases s with ⟨-, h⟩ | ⟨hidle, -⟩
    · simp [h, hsame, readTxf, hi]
    · rw [hsame, ha] at hidle; cases hidle

/-- With no frame being sent and none to start nothing happens (R135). -/
theorem txBoundary_of_idle {s : State} (ha : s.tx.act = false)
    (hn : ¬(s.tx.pend = true ∧ bitPeriodIndex s = s.K.txoffBits)) : txBoundary s = s := by
  rcases startPending_cases s with ⟨hp, -, hq, -⟩ | ⟨-, hsame⟩
  · exact absurd ⟨hp, hq⟩ hn
  · rcases txBoundary_cases s with ⟨hact, -⟩ | ⟨-, h⟩
    · rw [hsame, ha] at hact; cases hact
    · exact h

/-- Settles O26: the three cases of a bit boundary. -/
theorem txbitStartsSendsOrIdles : Obligations.TxbitStartsSendsOrIdles :=
  fun _ => ⟨fun hp ha hq => congrArg _ (txBoundary_of_starts hp ha hq),
    fun ha hi => congrArg _ (txBoundary_of_active ha hi), fun ha hn => congrArg _ (txBoundary_of_idle ha hn)⟩

/-- The first boundary is one `TXBIT` with the clock at the first reading. -/
theorem boundaries_cons (c : Nat) (cs : List Nat) (s : State) :
    boundaries (c :: cs) s = boundaries cs (txBoundary { s with clk := c }) := rfl

/-- A frame of which as many bits are left as boundaries follow is sent to its end, its bits in order (R135). The frame is
active exactly while a bit is left. -/
theorem boundaries_send_rest {cs : List Nat} {s : State} (hact : s.tx.act = decide (s.tx.idx ≠ 184))
    (hlen : s.tx.idx + cs.length = 184) :
    ∃ t, boundaries cs s = some t
      ∧ t.out = s.out ++ (List.range' s.tx.idx cs.length).map (fun i => .txbit (bitAt s.tx.txf i))
      ∧ t.tx.txf = s.tx.txf ∧ t.tx.pend = s.tx.pend ∧ t.tx.act = false ∧ t.tx.idx = 184 := by
  induction cs generalizing s with
  | nil =>
    have hidx : s.tx.idx = 184 := hlen
    exact ⟨s, rfl, by simp, rfl, rfl, by simp [hact, hidx], hidx⟩
  | cons c cs ih =>
    rw [List.length_cons] at hlen
    have hidx : s.tx.idx < 184 := by omega
    have hactive : s.tx.act = true := by simp [hact, hidx.ne]
    have hsent := txBoundary_of_active (s := { s with clk := c }) hactive hidx
    obtain ⟨t, ht, hout, hrest⟩ :=
      ih (s := txBoundary { s with clk := c }) (by simp [hsent]) (by simp only [hsent]; omega)
    exact ⟨t, ht, by simp [hout, hsent, List.range'_succ], by simpa [hsent] using hrest⟩

/-- Settles O27: the frame starts with bit 0, and `boundaries_send_rest` sends the other 183. -/
theorem pendingFrameGoesOutWhole : Obligations.PendingFrameGoesOutWhole := by
  intro s c cs hp ha hq hlen
  have hstart := txBoundary_of_starts (s := { s with clk := c }) hp ha hq
  obtain ⟨t, ht, hout, hrest⟩ :=
    boundaries_send_rest (cs := cs) (s := txBoundary { s with clk := c }) (by simp [hstart]) (by simp [hstart, hlen])
  have hfirst : List.range 184 = 0 :: List.range' 1 183 := List.range_eq_range'
  exact ⟨t, ht, by simp [hout, hstart, hlen, hfirst], by simpa [hstart] using hrest⟩

end Sys2Proof.Machine
end

section
/-! PROOFS. The distance of two sequences (00_scope.md R7) by the set of indices at which they differ, and the words the
decoder tries (42_codec.md R158): they are exactly the words within distance 2, the nearer ones first. -/

namespace Sys2Proof.Machine

/-! ### The indices at which two sequences differ -/

/-- The indices at which two sequences differ; `ham` counts them (00_scope.md R7). -/
def diffIndices {n : Nat} (a b : BitVec n) : Finset Nat := (Finset.range n).filter fun i => bitAt a i ≠ bitAt b i

@[simp] theorem mem_diffIndices {n : Nat} {a b : BitVec n} {i : Nat} :
    i ∈ diffIndices a b ↔ i < n ∧ bitAt a i ≠ bitAt b i := by
  simp [diffIndices]

theorem card_diffIndices {n : Nat} (a b : BitVec n) : (diffIndices a b).card = ham a b := (ham_eq_card a b).symm

/-- A word is known by where it differs from a given one. -/
theorem eq_of_diffIndices_eq {n : Nat} {w a b : BitVec n} (h : diffIndices w a = diffIndices w b) : a = b := by
  apply eq_of_bitAt
  intro i hi
  have hiff : bitAt w i ≠ bitAt a i ↔ bitAt w i ≠ bitAt b i := by
    simpa [hi] using Finset.ext_iff.mp h i
  have hcancel : ∀ x y z : Bool, (x ≠ y ↔ x ≠ z) → y = z := by decide
  exact hcancel _ _ _ hiff

theorem diffIndices_self {n : Nat} (a : BitVec n) : diffIndices a a = ∅ := by
  ext i; simp

theorem bitAt_flipBit_self {n : Nat} (w : BitVec n) {i : Nat} (hi : i < n) : bitAt (flipBit w i) i = !bitAt w i := by
  simp [bitAt_flipBit, hi]

theorem bitAt_flipBit_of_ne {n : Nat} (w : BitVec n) {i k : Nat} (h : k ≠ i) : bitAt (flipBit w i) k = bitAt w k := by
  by_cases hk : k < n
  · simp [bitAt_flipBit, h, hk]
  · rw [bitAt_of_ge _ (Nat.not_lt.mp hk), bitAt_of_ge _ (Nat.not_lt.mp hk)]

theorem diffIndices_flipBit {n : Nat} (w : BitVec n) {i : Nat} (hi : i < n) : diffIndices w (flipBit w i) = {i} := by
  ext k
  by_cases hk : k = i
  · subst hk; simp [bitAt_flipBit_self w hi, hi]
  · simp [bitAt_flipBit_of_ne w hk, hk]

/-- Two different bits flipped are the two indices of difference. -/
theorem diffIndices_flipBit_flipBit {n : Nat} (w : BitVec n) {i j : Nat} (hi : i < n) (hj : j < n) (hij : i ≠ j) :
    diffIndices w (flipBit (flipBit w i) j) = {i, j} := by
  ext k
  by_cases hki : k = i
  · subst hki; simp [bitAt_flipBit_of_ne _ hij, bitAt_flipBit_self w hi, hi]
  · by_cases hkj : k = j
    · subst hkj; simp [bitAt_flipBit_self _ hj, bitAt_flipBit_of_ne w hki, hj]
    · simp [bitAt_flipBit_of_ne _ hkj, bitAt_flipBit_of_ne w hki, hki, hkj]

/-! ### The distance is a metric -/

theorem eq_of_ham_eq_zero {n : Nat} {a b : BitVec n} (h : ham a b = 0) : a = b := by
  rw [← card_diffIndices, Finset.card_eq_zero] at h
  exact (eq_of_diffIndices_eq (h.trans (diffIndices_self a).symm)).symm

/-- Where two sequences differ, one of them differs from any third. -/
theorem ham_triangle {n : Nat} (a b c : BitVec n) : ham a c ≤ ham a b + ham b c := by
  have hsub : diffIndices a c ⊆ diffIndices a b ∪ diffIndices b c := by
    intro i hi
    obtain ⟨hn, hac⟩ := mem_diffIndices.mp hi
    by_cases hab : bitAt a i = bitAt b i
    · simp [hn, hab ▸ hac]
    · simp [hn, hab]
  simpa only [card_diffIndices] using (Finset.card_le_card hsub).trans (Finset.card_union_le _ _)

/-! ### The words the decoder tries -/

theorem mem_bitPairs {i j : Nat} : (i, j) ∈ bitPairs ↔ i < j ∧ j < 15 := by
  simp only [bitPairs, List.mem_flatMap, List.mem_map, List.mem_range, Prod.mk.injEq]
  constructor
  · rintro ⟨i', hi', k, hk, rfl, rfl⟩
    omega
  · rintro ⟨hij, hj⟩
    exact ⟨i, by omega, j - i - 1, by omega, rfl, by omega⟩

/-- The candidates are `w`, then `w` with one bit flipped, then with two (R158). -/
theorem mem_candidates_cases {w v : CodeWord} {e : Nat} : (v, e) ∈ candidates w ↔
    (v = w ∧ e = 0) ∨ (∃ i < 15, v = flipBit w i ∧ e = 1)
      ∨ ∃ i j, i < j ∧ j < 15 ∧ v = flipBit (flipBit w i) j ∧ e = 2 := by
  simp only [candidates, List.cons_append, List.mem_cons, List.mem_append, List.mem_map, List.mem_range,
    Prod.mk.injEq, Prod.exists, mem_bitPairs]
  grind

/-- The candidates are the words within distance 2, each with its distance (R158). -/
theorem mem_candidates {w v : CodeWord} {e : Nat} : (v, e) ∈ candidates w ↔ ham w v = e ∧ e ≤ 2 := by
  rw [mem_candidates_cases, ← card_diffIndices]
  constructor
  · rintro (⟨rfl, rfl⟩ | ⟨i, hi, rfl, rfl⟩ | ⟨i, j, hij, hj, rfl, rfl⟩)
    · simp [diffIndices_self]
    · simp [diffIndices_flipBit w hi]
    · simp [diffIndices_flipBit_flipBit w (hij.trans hj) hj hij.ne, Finset.card_pair hij.ne]
  · rintro ⟨hcard, he⟩
    have hbound : ∀ i ∈ diffIndices w v, i < 15 := fun i hi => (mem_diffIndices.mp hi).1
    obtain rfl | rfl | rfl : e = 0 ∨ e = 1 ∨ e = 2 := by omega
    · rw [Finset.card_eq_zero, ← diffIndices_self w] at hcard
      exact .inl ⟨eq_of_diffIndices_eq hcard, rfl⟩
    · obtain ⟨i, hset⟩ := Finset.card_eq_one.mp hcard
      have hi : i < 15 := hbound i (by simp [hset])
      exact .inr (.inl ⟨i, hi, eq_of_diffIndices_eq (hset.trans (diffIndices_flipBit w hi).symm), rfl⟩)
    · obtain ⟨i, j, hij, hset⟩ := Finset.card_eq_two.mp hcard
      wlog hij_lt : i < j generalizing i j
      · exact this j i hij.symm (hset.trans (Finset.pair_comm i j)) (by omega)
      have hi : i < 15 := hbound i (by simp [hset])
      have hj : j < 15 := hbound j (by simp [hset])
      have hflips := diffIndices_flipBit_flipBit w hi hj hij
      exact .inr (.inr ⟨i, j, hij_lt, hj, eq_of_diffIndices_eq (hset.trans hflips.symm), rfl⟩)

/-- The nearer words are tried first (R158). -/
theorem candidates_sorted (w : CodeWord) : (candidates w).Pairwise fun a b => a.2 ≤ b.2 := by
  have hone : ((List.range 15).map fun i => (flipBit w i, 1)).Pairwise fun a b => a.2 ≤ b.2 :=
    List.pairwise_map.mpr (List.pairwise_of_forall fun _ _ => le_rfl)
  have htwo : (bitPairs.map fun p => (flipBit (flipBit w p.1) p.2, 2)).Pairwise fun a b => a.2 ≤ b.2 :=
    List.pairwise_map.mpr (List.pairwise_of_forall fun _ _ => le_rfl)
  refine List.pairwise_append.mpr ⟨List.pairwise_cons.mpr ⟨fun _ _ => Nat.zero_le _, hone⟩, htwo, fun a ha b hb => ?_⟩
  obtain ⟨_, -, rfl⟩ := List.mem_map.mp hb
  rcases List.mem_cons.mp ha with rfl | ha
  · exact Nat.zero_le 2
  · obtain ⟨_, -, rfl⟩ := List.mem_map.mp ha
    exact Nat.le_succ 1

end Sys2Proof.Machine
end

section
/-! PROOFS. The block code (42_codec.md R152-R154, R166) and its decoder (R158, R159, R165). -/

namespace Sys2Proof.Machine

open Sys2Proof.Config

/-! ### The encoder -/

/-- One step of the sum of R153: `GEN[j]` is added when data bit `j` is 1. -/
def addContribution (K : Params) (d : Group) (r : BitVec 8) (j : Fin 7) : BitVec 8 :=
  if bitAt d j.val then r ^^^ K.gen[j.val] else r

theorem redundancy_eq_foldl (K : Params) (d : Group) :
    redundancy K d = ([0, 1, 2, 3, 4, 5, 6] : List (Fin 7)).foldl (addContribution K d) 0#8 := rfl

theorem bitAt_addContribution (K : Params) (d : Group) (r : BitVec 8) (j : Fin 7) (m : Nat) :
    bitAt (addContribution K d r j) m = (bitAt r m ^^ (bitAt d j.val && bitAt K.gen[j.val] m)) := by
  unfold addContribution
  cases bitAt d j.val <;> simp [bitAt_xor]

/-- Redundancy bit `m` is the exclusive or of `D[j]` and `GEN[j][m]` (R153). -/
theorem bitAt_redundancy (K : Params) (d : Group) (m : Nat) :
    bitAt (redundancy K d) m =
      ((bitAt d 0 && bitAt K.gen[0] m) ^^ (bitAt d 1 && bitAt K.gen[1] m) ^^ (bitAt d 2 && bitAt K.gen[2] m)
        ^^ (bitAt d 3 && bitAt K.gen[3] m) ^^ (bitAt d 4 && bitAt K.gen[4] m)
        ^^ (bitAt d 5 && bitAt K.gen[5] m) ^^ (bitAt d 6 && bitAt K.gen[6] m)) := by
  simp only [redundancy_eq_foldl, List.foldl_cons, List.foldl_nil, bitAt_addContribution, bitAt_zero, Bool.false_xor]
  rfl

theorem addContribution_xor (K : Params) (d d' : Group) (r r' : BitVec 8) (j : Fin 7) :
    addContribution K (d ^^^ d') (r ^^^ r') j = addContribution K d r j ^^^ addContribution K d' r' j := by
  apply eq_of_bitAt
  intro m _
  simp only [bitAt_addContribution, bitAt_xor, Bool.and_xor_distrib_right, Bool.xor_assoc, Bool.xor_left_comm]

/-- Adding the contributions of two groups and then the sums is adding those of their sum. -/
theorem foldl_addContribution_xor (K : Params) (d d' : Group) (js : List (Fin 7)) (r r' : BitVec 8) :
    js.foldl (addContribution K (d ^^^ d')) (r ^^^ r') =
      js.foldl (addContribution K d) r ^^^ js.foldl (addContribution K d') r' := by
  induction js generalizing r r' with
  | nil => rfl
  | cons j js ih => rw [List.foldl_cons, List.foldl_cons, List.foldl_cons, addContribution_xor, ih]

theorem redundancy_xor (K : Params) (d d' : Group) :
    redundancy K (d ^^^ d') = redundancy K d ^^^ redundancy K d' := by
  simpa only [redundancy_eq_foldl, BitVec.xor_self] using foldl_addContribution_xor K d d' [0, 1, 2, 3, 4, 5, 6] 0#8 0#8

theorem bitAt_bchEnc (K : Params) (d : Group) (i : Nat) :
    bitAt (bchEnc K d) i = if i < 7 then bitAt d i else bitAt (redundancy K d) (i - 7) :=
  bitAt_append d (redundancy K d) i

/-- Encoding is linear (R166). -/
theorem bchEnc_xor (K : Params) (d d' : Group) : bchEnc K (d ^^^ d') = bchEnc K d ^^^ bchEnc K d' := by
  apply eq_of_bitAt
  intro i _
  by_cases hi : i < 7 <;> simp [bitAt_bchEnc, bitAt_xor, redundancy_xor, hi]

/-- The code word of the zero group is zero (R166). -/
theorem bchEnc_zero (K : Params) : bchEnc K 0#7 = 0#15 := by
  have h := bchEnc_xor K 0#7 0#7
  rwa [BitVec.xor_self, BitVec.xor_self] at h

@[simp] theorem dataBits_bchEnc (K : Params) (d : Group) : dataBits (bchEnc K d) = d := dataBits_append d _

/-- Different groups have different code words (R154). -/
theorem bchEnc_injective (K : Params) : Function.Injective (bchEnc K) :=
  Function.LeftInverse.injective (dataBits_bchEnc K)

theorem isCode_iff (K : Params) (w : CodeWord) : isCode K w = true ↔ bchEnc K (dataBits w) = w := decide_eq_true_iff

/-- The members of the code are the code words of the groups (R154). -/
theorem isCode_iff_exists (K : Params) (w : CodeWord) : isCode K w = true ↔ ∃ d : Group, bchEnc K d = w := by
  rw [isCode_iff]
  constructor
  · exact fun h => ⟨_, h⟩
  · rintro ⟨d, rfl⟩
    rw [dataBits_bchEnc]

theorem mem_codeTable (K : Params) (w : CodeWord) : w ∈ codeTable K ↔ ∃ d : Group, bchEnc K d = w := by
  simp only [codeTable, List.mem_map, List.mem_range]
  constructor
  · rintro ⟨n, -, h⟩
    exact ⟨_, h⟩
  · rintro ⟨d, h⟩
    exact ⟨d.toNat, d.isLt, by rwa [BitVec.ofNat_toNat, BitVec.setWidth_eq]⟩

theorem codeTable_nodup (K : Params) : (codeTable K).Nodup := by
  refine List.Nodup.map_on ?_ List.nodup_range
  intro a ha b hb h
  have hnat := congrArg BitVec.toNat (bchEnc_injective K h)
  simp only [List.mem_range] at ha hb
  rwa [BitVec.toNat_ofNat, BitVec.toNat_ofNat, Nat.mod_eq_of_lt ha, Nat.mod_eq_of_lt hb] at hnat

/-- Settles O29: the data bits come first, `bitAt_redundancy` gives the others, and encoding is linear. -/
theorem bchencIsSystematicAndLinear : Obligations.BchencIsSystematicAndLinear := by
  intro s d d'
  refine ⟨bchEnc s.K d, bchEnc s.K d', rfl, rfl, fun j hj => by rw [bitAt_bchEnc, if_pos hj], fun m _ => ?_, ?_, ?_⟩
  · rw [bitAt_bchEnc, if_neg (by omega), Nat.add_sub_cancel_left, bitAt_redundancy]
  · rw [← bchEnc_xor]; rfl
  · rw [← bchEnc_zero s.K]; rfl

/-- Settles O30: the table lists the code words of the 128 groups, and a group is read back from its code word. -/
theorem codeHasExactly128Words : Obligations.CodeHasExactly128Words := fun K =>
  ⟨by simp [codeTable], codeTable_nodup K, mem_codeTable K,
    fun w => (mem_codeTable K w).trans (isCode_iff_exists K w).symm, isCode_iff K, dataBits_bchEnc K⟩

/-! ### The decoder -/

/-- An answer is the data of a nearest code word, with its distance, which is at most 2 (R158). -/
theorem bchDec_eq_some {K : Params} {w : CodeWord} {d : Group} {e : Nat} (h : bchDec K w = some (d, e)) :
    e ≤ 2 ∧ ham w (bchEnc K d) = e ∧ ∀ d' : Group, e ≤ ham w (bchEnc K d') := by
  obtain ⟨⟨v, f⟩, before, after, hsplit, hcode, rfl, rfl, hfirst⟩ := bchDec_some h
  have hmem : (v, f) ∈ candidates w := by simp [hsplit]
  obtain ⟨hdist, hle⟩ := mem_candidates.mp hmem
  have hword : bchEnc K (dataBits v) = v := (isCode_iff K v).mp hcode
  refine ⟨hle, by rw [hword, hdist], fun d' => Nat.le_of_not_lt fun hnear => ?_⟩
  have hmem' : (bchEnc K d', ham w (bchEnc K d')) ∈ before ++ (v, f) :: after :=
    hsplit ▸ mem_candidates.mpr ⟨rfl, by omega⟩
  have hsorted := hsplit ▸ candidates_sorted w
  obtain ⟨-, hrest, -⟩ := List.pairwise_append.mp hsorted
  rcases List.mem_append.mp hmem' with hb | ha
  · have hno := hfirst _ hb
    rw [(isCode_iff_exists K _).mpr ⟨d', rfl⟩] at hno
    cases hno
  · rcases List.mem_cons.mp ha with heq | hafter
    · exact hnear.ne (congrArg Prod.snd heq)
    · exact absurd ((List.pairwise_cons.mp hrest).1 _ hafter) (Nat.not_le.mpr hnear)

/-- The decoder fails when every code word is farther than 2 (R158). -/
theorem bchDec_eq_none_iff {K : Params} {w : CodeWord} : bchDec K w = none ↔ ∀ d : Group, 2 < ham w (bchEnc K d) := by
  rw [bchDec_none]
  constructor
  · intro hnone d
    by_contra hnear
    have hno := hnone _ (mem_candidates.mpr ⟨rfl, Nat.not_lt.mp hnear⟩)
    rw [(isCode_iff_exists K _).mpr ⟨d, rfl⟩] at hno
    cases hno
  · rintro hfar ⟨v, e⟩ hmem
    obtain ⟨hdist, hle⟩ := mem_candidates.mp hmem
    rw [← Bool.not_eq_true, isCode_iff_exists]
    rintro ⟨d, rfl⟩
    exact absurd (hfar d) (by omega)

/-- A code word decodes to its data, whatever `GEN` is (R163). -/
theorem bchDec_bchEnc (K : Params) (d : Group) : bchDec K (bchEnc K d) = some (d, 0) := by
  cases h : bchDec K (bchEnc K d) with
  | none =>
    have hfar := bchDec_eq_none_iff.mp h d
    rw [ham_self] at hfar
    exact absurd hfar (by decide)
  | some r =>
    obtain ⟨-, hdist, hnearest⟩ := bchDec_eq_some (d := r.1) (e := r.2) h
    have hzero : r.2 = 0 := Nat.le_zero.mp (ham_self (bchEnc K d) ▸ hnearest d)
    have hdata : d = r.1 := bchEnc_injective K (eq_of_ham_eq_zero (hdist.trans hzero))
    rw [hdata, ← hzero]

/-- Settles O34: `bchDec_eq_none_iff` and `bchDec_eq_some`. -/
theorem bchdecFindsNearestCodeWord : Obligations.BchdecFindsNearestCodeWord :=
  fun s w => ⟨bchDec s.K w, rfl, bchDec_eq_none_iff, fun _ _ => bchDec_eq_some⟩

/-! ### Minimum distance 5 -/

/-- The distance of two code words is the weight of the code word of the difference (R166). -/
theorem ham_bchEnc (K : Params) (d d' : Group) : ham (bchEnc K d) (bchEnc K d') = weight (bchEnc K (d ^^^ d')) := by
  rw [bchEnc_xor, ham]

theorem minDistanceFive_iff_weight {K : Params} :
    minDistanceFive K = true ↔ ∀ d : Group, d ≠ 0#7 → 5 ≤ weight (bchEnc K d) := by
  simp only [minDistanceFive, List.all_eq_true, List.mem_range, Bool.or_eq_true, decide_eq_true_iff]
  constructor
  · intro h d hd
    have hd' : d.toNat ≠ 0 := fun hz => hd (BitVec.eq_of_toNat_eq hz)
    simpa [hd'] using h d.toNat d.isLt
  · intro h n hn
    refine (eq_or_ne n 0).imp_right fun hne => h _ fun hz => hne ?_
    have hnat := congrArg BitVec.toNat hz
    rwa [BitVec.toNat_ofNat, Nat.mod_eq_of_lt hn] at hnat

/-- The two forms of the constraint on `GEN` (R152), the code being linear. -/
theorem minDistanceFive_iff {K : Params} :
    minDistanceFive K = true ↔ ∀ d d' : Group, d ≠ d' → 5 ≤ ham (bchEnc K d) (bchEnc K d') := by
  rw [minDistanceFive_iff_weight]
  constructor
  · intro h d d' hne
    rw [ham_bchEnc]
    exact h _ fun hz => hne (BitVec.xor_eq_zero_iff.mp hz)
  · intro h d hd
    simpa [ham_bchEnc] using h d 0#7 hd

/-- Settles O36: the distance of two code words is the weight of a third. -/
theorem codeDistanceIsSmallestWeight : Obligations.CodeDistanceIsSmallestWeight := fun _ => minDistanceFive_iff

/-- Two groups whose code words are together nearer to a word than 5 are one group (R159). -/
theorem eq_of_ham_add_lt {K : Params} (hK : minDistanceFive K = true) {w : CodeWord} {d d' : Group}
    (h : ham w (bchEnc K d) + ham w (bchEnc K d') < 5) : d = d' := by
  by_contra hne
  have hfive := minDistanceFive_iff.mp hK d d' hne
  have htri := ham_triangle (bchEnc K d) w (bchEnc K d')
  rw [ham_comm _ w] at htri
  omega

/-- A code word within distance 2 is the one the decoder answers (R159). -/
theorem bchDec_of_ham_le {K : Params} (hK : minDistanceFive K = true) {w : CodeWord} {d : Group}
    (h : ham w (bchEnc K d) ≤ 2) : bchDec K w = some (d, ham w (bchEnc K d)) := by
  cases hdec : bchDec K w with
  | none => exact absurd (bchDec_eq_none_iff.mp hdec d) (Nat.not_lt.mpr h)
  | some r =>
    obtain ⟨hle, hdist, -⟩ := bchDec_eq_some (d := r.1) (e := r.2) hdec
    have hdata : d = r.1 := eq_of_ham_add_lt hK (w := w) (by omega)
    rw [hdata, hdist]

/-- Settles O35: at most one code word is within distance 2, and the decoder answers it. -/
theorem nearestCodeWordIsUnique : Obligations.NearestCodeWordIsUnique := fun _ hK w =>
  ⟨fun _ _ h h' => eq_of_ham_add_lt hK (w := w) (by omega), fun _ => bchDec_of_ham_le hK, bchDec_eq_none_iff.mpr⟩

/-- Settles O42: the answer is within 2 of the word, so it is another group, and then the two distances add up to at
least 5. -/
theorem threeErrorsNeverReturnSentData : Obligations.ThreeErrorsNeverReturnSentData := by
  intro K d w d' e hK hfar hdec
  obtain ⟨hle, hdist, -⟩ := bchDec_eq_some hdec
  have hne : d' ≠ d := by
    rintro rfl
    omega
  have hfive : 5 ≤ ham w (bchEnc K d') + ham w (bchEnc K d) := Nat.le_of_not_lt fun h => hne (eq_of_ham_add_lt hK h)
  exact ⟨hne, fun h3 => by omega, fun h4 => by omega⟩

end Sys2Proof.Machine
end

section
/-! PROOFS. The interleaver (42_codec.md R155, R157), padding (R151) and whole telegrams (R156, R160, R161, R163, R164). -/

namespace Sys2Proof.Machine

open Sys2Proof.Config

/-! ### Padding -/

theorem bitAt_pad (K : Params) (p : Payload) (n : Nat) :
    bitAt (pad K p) n = if n < 64 then bitAt p n else bitAt K.pad6 (n - 64) := bitAt_append p K.pad6 n

theorem unpadPayload_pad (K : Params) (p : Payload) : unpadPayload (pad K p) = p := by
  apply eq_of_bitAt
  intro n hn
  simp [unpadPayload, bitAt_slice, bitAt_pad, hn]

theorem unpadPad_pad (K : Params) (p : Payload) : unpadPad (pad K p) = K.pad6 := by
  apply eq_of_bitAt
  intro m hm
  simp [unpadPad, bitAt_slice, bitAt_pad, hm]

/-- The two parts `UNPAD` gives make up the information vector (R151). -/
theorem unpadPayload_append_unpadPad (i : Info) : (unpadPayload i ++ unpadPad i : Info) = i := by
  apply eq_of_bitAt
  intro n hn
  have happend : bitAt (unpadPayload i ++ unpadPad i : Info) n =
      if n < 64 then bitAt (unpadPayload i) n else bitAt (unpadPad i) (n - 64) := bitAt_append _ _ n
  rw [happend, unpadPayload, unpadPad, bitAt_slice, bitAt_slice]
  by_cases h : n < 64
  · simp [h]
  · simp [h, show n - 64 < 6 by omega, show 64 + (n - 64) = n by omega]

/-- Settles O28: the bits of `p ++ PAD6` and the two slices of 70 bits. -/
theorem padAndItsInverse : Obligations.PadAndItsInverse := by
  intro s p j
  refine ⟨⟨pad s.K p, rfl, fun n hn => ?_, fun m _ => ?_, ?_⟩, _, _, rfl, unpadPayload_append_unpadPad j⟩
  · rw [bitAt_pad, if_pos hn]
  · rw [bitAt_pad, if_neg (by omega), Nat.add_sub_cancel_left]
  · have hunpad : exec (.pad (.unpad (pad s.K p))) s =
        .next { s with ret := .unpadded (unpadPayload (pad s.K p)) (unpadPad (pad s.K p)) } := rfl
    rw [hunpad, unpadPayload_pad, unpadPad_pad]

/-! ### The interleaver -/

/-- `X[10 * c + g] = CW_g[c]` (R155), by word and bit. -/
theorem bitAt_interleave_at (cw : Words) {g c : Nat} (hg : g < 10) (hc : c < 15) :
    bitAt (interleave cw) (10 * c + g) = bitAt cw[g] c := by
  rw [bitAt_interleave cw (by omega)]
  simp only [show (10 * c + g) % 10 = g by omega, show (10 * c + g) / 10 = c by omega]

theorem deinterleave_interleave (cw : Words) : deinterleave (interleave cw) = cw := by
  refine Vector.ext fun g hg => eq_of_bitAt fun c hc => ?_
  rw [bitAt_deinterleave _ hg hc, bitAt_interleave_at cw hg hc]

theorem interleave_deinterleave (y : Coded) : interleave (deinterleave y) = y := by
  apply eq_of_bitAt
  intro n hn
  rw [bitAt_interleave _ hn, bitAt_deinterleave _ (Nat.mod_lt n (by decide)) (by omega), Nat.div_add_mod]

/-- Settles O31: `bitAt_interleave_at` and `bitAt_deinterleave`. -/
theorem interleaverIndexMap : Obligations.InterleaverIndexMap := fun _ cw y =>
  ⟨interleave cw, deinterleave y, rfl, rfl, fun _ _ hg hc => ⟨bitAt_interleave_at cw hg hc, bitAt_deinterleave y hg hc⟩⟩

/-- Settles O32: both ways follow from the index map. -/
theorem interleaverRoundTrip : Obligations.InterleaverRoundTrip :=
  ⟨deinterleave_interleave, interleave_deinterleave, fun y _ _ hg hc => bitAt_deinterleave y hg hc⟩

/-! ### Encoding a telegram -/

theorem bitAt_groupOf (i : Info) (g : Nat) {j : Nat} (hj : j < 7) : bitAt (groupOf i g) j = bitAt i (7 * g + j) := by
  simp [groupOf, bitAt_slice, hj]

/-- Word `g` of an encoded telegram is the code word of group `g` (R156). -/
theorem deinterleave_encodeTelegram (K : Params) (p : Payload) {g : Nat} (hg : g < 10) :
    (deinterleave (encodeTelegram K p))[g] = bchEnc K (groupOf (pad K p) g) := by
  simp only [encodeTelegram, deinterleave_interleave, Vector.getElem_ofFn]

/-- Settles O33: word `g` of the encoded telegram, read at its places. -/
theorem encodePlacesCodeWords : Obligations.EncodePlacesCodeWords := fun s p =>
  ⟨encodeTelegram s.K p, rfl, fun g hg => ⟨groupOf (pad s.K p) g, fun _ hj => bitAt_groupOf _ g hj,
    fun _ hc => by rw [← bitAt_deinterleave _ hg hc, deinterleave_encodeTelegram s.K p hg]⟩⟩

/-! ### Decoding a telegram -/

theorem bitAt_joinGroups (ds : List Group) {g j : Nat} (hg : g < 10) (hj : j < 7) :
    bitAt (joinGroups ds) (7 * g + j) = bitAt (ds.getD g 0#7) j := by
  rw [joinGroups, bitAt_ofBits_lt (by omega), show (7 * g + j) / 7 = g by omega, show (7 * g + j) % 7 = j by omega]

/-- An information vector is made up of its ten groups (30_encoding.md R65). -/
theorem joinGroups_groupOf (i : Info) : joinGroups ((List.range 10).map (groupOf i)) = i := by
  apply eq_of_bitAt
  intro n hn
  have hg : n / 7 < 10 := by omega
  have hj : n % 7 < 7 := Nat.mod_lt n (by decide)
  rw [← Nat.div_add_mod n 7, bitAt_joinGroups _ hg hj, ← bitAt_groupOf i _ hj]
  simp [List.getD_eq_getElem?_getD, hg]

/-- `DECODE` fails when a word fails (R160). -/
theorem decodeTelegram_eq_none_iff {K : Params} {y : Coded} :
    decodeTelegram K y = none ↔ ∃ (g : Nat) (hg : g < 10), bchDec K (deinterleave y)[g] = none := by
  have hwords : decodeTelegram K y = none ↔ decodeWords K (deinterleave y).toList = none := by
    unfold decodeTelegram
    cases decodeWords K (deinterleave y).toList <;> simp
  rw [hwords, decodeWords_none]
  simp only [Vector.mem_toList_iff, Vector.mem_iff_getElem]
  constructor
  · rintro ⟨w, ⟨g, hg, rfl⟩, hw⟩
    exact ⟨g, hg, hw⟩
  · rintro ⟨g, hg, hw⟩
    exact ⟨_, ⟨g, hg, rfl⟩, hw⟩

/-- The ten words decode when each does, and the results are theirs, in order (R160). -/
theorem decodeWords_deinterleave {K : Params} {y : Coded} {rs : List (Group × Nat)} :
    decodeWords K (deinterleave y).toList = some rs ↔
      rs.length = 10 ∧ ∀ (g : Nat) (hg : g < 10), bchDec K (deinterleave y)[g] = rs[g]? := by
  rw [decodeWords_some, List.forall₂_iff_get]
  simp only [Vector.length_toList, List.get_eq_getElem, Vector.getElem_toList, eq_comm (a := 10)]
  refine and_congr_right fun hlen => ⟨fun h g hg => ?_, fun h g hg hg' => ?_⟩
  · rw [List.getElem?_eq_getElem (hlen ▸ hg)]
    exact h g hg (hlen ▸ hg)
  · rw [h g hg, List.getElem?_eq_getElem hg']

/-- `DECODE` answers the groups and flags of the ten words, in order (R160). -/
theorem decodeTelegram_eq_some_iff {K : Params} {y : Coded} {tg : Telegram} :
    decodeTelegram K y = some tg ↔ ∃ rs : List (Group × Nat), rs.length = 10
      ∧ (∀ (g : Nat) (hg : g < 10), bchDec K (deinterleave y)[g] = rs[g]?)
      ∧ tg = { info := joinGroups (rs.map Prod.fst), eflag := rs.map Prod.snd } := by
  have hwords : decodeTelegram K y = some tg ↔ ∃ rs, decodeWords K (deinterleave y).toList = some rs
      ∧ tg = { info := joinGroups (rs.map Prod.fst), eflag := rs.map Prod.snd } := by
    unfold decodeTelegram
    cases decodeWords K (deinterleave y).toList <;> simp [eq_comm]
  simp only [hwords, decodeWords_deinterleave, and_assoc]

/-- Settles O37: `decodeTelegram_eq_none_iff`, and the group and flag of each word by `decodeTelegram_eq_some_iff`. -/
theorem decodeNeedsEveryWord : Obligations.DecodeNeedsEveryWord := by
  refine fun s y => ⟨decodeTelegram s.K y, rfl, decodeTelegram_eq_none_iff, fun tg htg => ?_⟩
  obtain ⟨rs, hlen, hwords, rfl⟩ := decodeTelegram_eq_some_iff.mp htg
  refine ⟨by simp [hlen], fun g hg => ?_⟩
  have hget : rs[g]? = some rs[g] := List.getElem?_eq_getElem (hlen ▸ hg)
  refine ⟨rs[g].1, rs[g].2, (hwords g hg).trans hget, by simp [hget], fun j hj => ?_⟩
  rw [bitAt_joinGroups _ hg hj]
  simp [List.getD_eq_getElem?_getD, hget]

/-- When every word decodes to its group of `i`, `DECODE` answers `i` (R160). -/
theorem decodeTelegram_of_groups {K : Params} {y : Coded} {i : Info} {flag : Nat → Nat}
    (h : ∀ (g : Nat) (hg : g < 10), bchDec K (deinterleave y)[g] = some (groupOf i g, flag g)) :
    decodeTelegram K y = some { info := i, eflag := (List.range 10).map flag } := by
  refine decodeTelegram_eq_some_iff.mpr ⟨(List.range 10).map fun g => (groupOf i g, flag g), by simp, fun g hg => ?_, ?_⟩
  · simp [h g hg, hg]
  · rw [List.map_map, List.map_map]
    exact congrArg (Telegram.mk · _) (joinGroups_groupOf i).symm

/-- Settles O39: each word is a code word, so it decodes to its group with flag 0. -/
theorem telegramRoundTrip : Obligations.TelegramRoundTrip := by
  intro K p
  have hdecode : decodeTelegram K (encodeTelegram K p) =
      some { info := pad K p, eflag := (List.range 10).map fun _ => 0 } :=
    decodeTelegram_of_groups fun g hg => by rw [deinterleave_encodeTelegram K p hg, bchDec_bchEnc]
  exact ⟨_, hdecode, rfl, rfl, rfl, unpadPayload_pad K p, unpadPad_pad K p⟩

/-! ### Wrong bits -/

/-- The number of wrong bits in word `g`: of the positions `10 * c + g` at which two sequences differ (R164). -/
def wordErrors (x y : Coded) (g : Nat) : Nat :=
  (List.range 15).countP fun c => bitAt y (10 * c + g) != bitAt x (10 * c + g)

/-- The wrong bits of a word are its distance from the word sent. -/
theorem ham_deinterleave (x y : Coded) {g : Nat} (hg : g < 10) :
    ham (deinterleave y)[g] (deinterleave x)[g] = wordErrors x y g := by
  rw [ham_eq_countP]
  refine List.countP_congr fun c hc => ?_
  have hc' : c < 15 := List.mem_range.mp hc
  rw [bitAt_deinterleave y hg hc', bitAt_deinterleave x hg hc']

/-- Up to two wrong bits in each word are corrected and counted (R164). -/
theorem decodeTelegram_of_wordErrors_le {K : Params} (hK : minDistanceFive K = true) {p : Payload} {y : Coded}
    (h : ∀ g, g < 10 → wordErrors (encodeTelegram K p) y g ≤ 2) :
    decodeTelegram K y = some { info := pad K p, eflag := (List.range 10).map (wordErrors (encodeTelegram K p) y) } := by
  refine decodeTelegram_of_groups fun g hg => ?_
  have hdist := ham_deinterleave (encodeTelegram K p) y hg
  rw [deinterleave_encodeTelegram K p hg] at hdist
  rw [bchDec_of_ham_le hK (hdist.trans_le (h g hg)), hdist]

/-- Settles O40: the flag of a word is its distance from the code word sent, which counts its wrong bits. -/
theorem twoErrorsInEachWordAreCorrected : Obligations.TwoErrorsInEachWordAreCorrected :=
  fun _ _ _ hK h => decodeTelegram_of_wordErrors_le hK h

/-- Twenty positions in a row hold at most two of each word, whose positions are ten apart (R155). -/
theorem wordErrors_le_two_of_burst {x y : Coded} {a : Nat}
    (h : ∀ n, n < 150 → n < a ∨ a + 20 ≤ n → bitAt y n = bitAt x n) {g : Nat} (hg : g < 10) : wordErrors x y g ≤ 2 := by
  have hsub : ((Finset.range 15).filter fun c => bitAt y (10 * c + g) ≠ bitAt x (10 * c + g))
      ⊆ Finset.Ico ((a + 9 - g) / 10) ((a + 9 - g) / 10 + 2) := by
    intro c hc
    obtain ⟨hc15, hwrong⟩ := Finset.mem_filter.mp hc
    have hin : ¬(10 * c + g < a ∨ a + 20 ≤ 10 * c + g) :=
      fun hout => hwrong (h _ (by have := Finset.mem_range.mp hc15; omega) hout)
    rw [Finset.mem_Ico]
    omega
  have hcount : wordErrors x y g =
      ((Finset.range 15).filter fun c => bitAt y (10 * c + g) ≠ bitAt x (10 * c + g)).card := by
    rw [← Nat.count_eq_card_filter_range]
    exact List.countP_congr fun _ _ => by simp
  rw [hcount]
  exact (Finset.card_le_card hsub).trans (by simp)

/-- Settles O41: a burst leaves at most two wrong bits in each word, so every flag is at most 2. -/
theorem burstOfTwentyIsCorrected : Obligations.BurstOfTwentyIsCorrected := by
  intro K p y a hK hburst
  have htwo : ∀ g, g < 10 → wordErrors (encodeTelegram K p) y g ≤ 2 := fun _ => wordErrors_le_two_of_burst hburst
  refine ⟨_, decodeTelegram_of_wordErrors_le hK htwo, rfl, fun e he => ?_⟩
  obtain ⟨g, hg, rfl⟩ := List.mem_map.mp he
  exact htwo g (List.mem_range.mp hg)

/-- Settles O38: `idleChk_iff`. -/
theorem idlechkIsAllEqual : Obligations.IdlechkIsAllEqual := fun _ p => ⟨idleChk p, rfl, idleChk_iff p⟩

end Sys2Proof.Machine
end

section
/-! PROOFS. The local clock (43_clock.md): its load and its tick, the sync error as the one value of its range congruent to
the distance of the origin, the correction and the error it leaves, and a phase copied from one block to another. -/

namespace Sys2Proof.Machine

open Sys2Proof.Config

/-! ### The load -/

/-- An argument fits in 64 bits, so only the super-frame reduces it (30_encoding.md R61). -/
theorem clockOperand_eq (K : Params) (arg : Arg) : clockOperand K arg = arg.toNat % superT K := by
  rw [clockOperand, zext, Nat.mod_eq_of_lt arg.isLt]

/-- Settles O14: the load writes the clock into a state whose output has been emptied. -/
theorem clkloadSetsOnlyTheClock : Obligations.ClkloadSetsOnlyTheClock := fun s arg =>
  ⟨clkLoad (clockOperand s.K arg) (beginRequest s), rfl,
    ⟨rfl, rfl, rfl, rfl, rfl, rfl, clockOperand_eq s.K arg, rfl⟩, rfl⟩

/-! ### The tick -/

/-! The super-frame is whole bits and whole periods, and longer than one bit (00_scope.md R6). -/

theorem Admissible.bitT_dvd_superT {K : Params} (h : Admissible K) : K.bitT ∣ superT K :=
  ((Nat.dvd_of_mod_eq_zero h.rxperT_mult).trans (Nat.dvd_of_mod_eq_zero h.slotT_mult)).trans (Nat.dvd_mul_left _ _)

theorem Admissible.rxperT_dvd_superT {K : Params} (h : Admissible K) : K.rxperT ∣ superT K :=
  (Nat.dvd_of_mod_eq_zero h.slotT_mult).trans (Nat.dvd_mul_left _ _)

theorem Admissible.bitT_lt_superT {K : Params} (h : Admissible K) : K.bitT < superT K := by
  have hframe : 184 * K.bitT ≤ K.rxperT := (Nat.mul_le_mul_right _ (Nat.le_add_left _ _)).trans h.rxperT_ge
  have hsuper : K.rxperT ≤ superT K := Nat.le_of_dvd h.superT_pos h.rxperT_dvd_superT
  have := h.bitT_pos
  omega

/-- A step shorter than a block changes the block index exactly when it uses up the rest of the block, also where the
position wraps round: the last block is not the first. -/
theorem add_mod_div_ne_iff {c p b n : Nat} (hp : p < b) (hdvd : b ∣ n) (hbn : b < n) (hc : c < n) :
    (c + p) % n / b ≠ c / b ↔ b ≤ c % b + p := by
  have hstep : (c + p) / b = c / b + if b ≤ c % b + p then 1 else 0 := by
    simpa [Nat.mod_eq_of_lt hp, Nat.div_eq_of_lt hp] using Nat.add_div (a := c) (b := p) (Nat.zero_lt_of_lt hp)
  by_cases hwrap : c + p < n
  · rw [Nat.mod_eq_of_lt hwrap, hstep]
    split <;> omega
  · obtain ⟨k, rfl⟩ := hdvd
    have hfirst : (c + p) % (b * k) / b = 0 := by
      rw [Nat.mod_eq_sub_mod (not_lt.mp hwrap), Nat.mod_eq_of_lt (by omega)]
      exact Nat.div_eq_of_lt (by omega)
    have hlater : c / b < k := Nat.div_lt_of_lt_mul hc
    have hreached : k ≤ (c + p) / b := (Nat.le_div_iff_mul_le (by omega)).mpr (by rw [mul_comm]; omega)
    have hk : 1 < k := by
      by_contra hle
      exact absurd (Nat.mul_le_mul_left b (not_lt.mp hle)) (by omega)
    rw [hfirst]
    split at hstep <;> omega

/-- Settles O15: the tick is `TXBIT` at the advanced clock or the advanced clock alone, and an admissible bit is longer than
a sample period. -/
theorem clktickAdvancesClock : Obligations.ClktickAdvancesClock := by
  intro s
  have hclk : (clkTick s).clk = (s.clk + s.K.tps) % superT s.K := clkTick_clk s
  refine ⟨clkTick s, rfl, hclk, fun hne => ?_, fun heq => ?_, by simp [SameSpec], fun hK hlt => ?_⟩
  · rcases clkTick_cases s with ⟨-, h⟩ | ⟨hsame, -⟩
    · rw [hclk, h]; rfl
    · exact absurd (hclk ▸ hsame) hne
  · rcases clkTick_cases s with ⟨hcross, -⟩ | ⟨-, h⟩
    · exact absurd heq (hclk ▸ hcross)
    · rw [hclk, h]
  · have htps : s.K.tps < s.K.bitT := by have := hK.bitT_ge; have := hK.tps_pos; omega
    rw [hclk]
    exact add_mod_div_ne_iff htps hK.bitT_dvd_superT hK.bitT_lt_superT hlt

/-! ### The sync error -/

/-- The sync error differs from the distance of the origin by whole periods (R183). -/
theorem rxperT_dvd_sub_syncErr {s : State} (hK : Admissible s.K) (o : Int) :
    (s.K.rxperT : Int) ∣ ((s.clk : Int) - ((s.dem.t : Int) - o)) - (s.K.originT : Int) - syncErr s o := by
  obtain ⟨i, hi⟩ : (s.K.rxperT : Int) ∣ (s.clk : Int) - ((s.dem.t : Int) - o) - clockAt s o :=
    (Int.natCast_dvd_natCast.mpr hK.rxperT_dvd_superT).trans Int.dvd_self_sub_emod
  obtain ⟨j, hj⟩ := Int.dvd_self_sub_emod (x := clockAt s o - (s.K.originT : Int) + (s.K.rxperT : Int) / 2)
    (m := (s.K.rxperT : Int))
  exact ⟨i + j, by rw [syncErr]; linear_combination hi + hj⟩

/-- The range and the congruence determine the sync error: two values of the range differ by less than a period. -/
theorem syncErr_eq_of_dvd {s : State} (hK : Admissible s.K) {o e : Int}
    (hlo : -((s.K.rxperT : Int) / 2) ≤ e) (hhi : e < (s.K.rxperT : Int) / 2)
    (hdvd : (s.K.rxperT : Int) ∣ ((s.clk : Int) - ((s.dem.t : Int) - o)) - (s.K.originT : Int) - e) :
    syncErr s o = e := by
  obtain ⟨i, hi⟩ := hdvd
  obtain ⟨j, hj⟩ := rxperT_dvd_sub_syncErr hK o
  have hdiff : (s.K.rxperT : Int) ∣ syncErr s o - e := ⟨i - j, by linear_combination hi - hj⟩
  have hsmall : |syncErr s o - e| < (s.K.rxperT : Int) := by
    have hrange := syncErr_range hK o
    have hhalves := hK.rxperT_halves.2
    rw [abs_lt]; omega
  exact sub_eq_zero.mp (Int.eq_zero_of_abs_lt_dvd hdiff hsmall)

/-- Settles O16: `syncErr_range` and `rxperT_dvd_sub_syncErr` at the value returned. -/
theorem syncerrIsDistanceToExpectedOrigin : Obligations.SyncerrIsDistanceToExpectedOrigin := fun s o hK =>
  ⟨syncErr s o, rfl, (syncErr_range hK o).1, (syncErr_range hK o).2, rxperT_dvd_sub_syncErr hK o⟩

/-! ### The correction -/

/-- An error is beyond half a bit when its double exceeds the bit, also for an odd `BIT_T` (R184). -/
theorem correction_eq (K : Params) (e : Int) :
    correction K e = if (K.bitT : Int) < 2 * |e| then e else e.tdiv 2 := by
  rw [correction, Int.natCast_natAbs]
  exact if_congr (by omega) rfl rfl

/-- The error that is left after one correction (R184). -/
def residual (K : Params) (e : Int) : Int := e - correction K e

theorem residual_eq (K : Params) (e : Int) :
    residual K e = if (K.bitT : Int) < 2 * |e| then 0 else e - e.tdiv 2 := by
  rw [residual, correction_eq]
  split
  · exact sub_self e
  · rfl

/-- The clock after a correction, as an integer: with a positive super-frame the remainder is its own `toNat`. -/
theorem clkCorr_clk_cast {s : State} (hS : 0 < superT s.K) (e : Int) :
    ((clkCorr e s).clk : Int) = ((s.clk : Int) - correction s.K e) % (superT s.K : Int) :=
  Int.toNat_of_nonneg (Int.emod_nonneg _ (by omega))

/-- Settles O17: `CLKCORR` writes the clock alone, and `correction_eq` gives the amount. -/
theorem clkcorrSnapsOrHalves : Obligations.ClkcorrSnapsOrHalves := by
  intro s e hslot
  refine ⟨clkCorr e s, rfl, ?_, ⟨rfl, rfl, rfl, rfl, rfl, rfl, rfl, rfl⟩, rfl⟩
  rw [clkCorr_clk_cast (Nat.mul_pos (by decide) hslot), correction_eq]
  rfl

/-- Half an error, truncated toward zero, by the quotient that rounds down. -/
theorem tdiv_two_eq (e : Int) : e.tdiv 2 = e / 2 + if 0 ≤ e ∨ 2 ∣ e then 0 else 1 := Int.tdiv_eq_ediv

/-- What is left lies between 0 and the error. -/
theorem residual_between (K : Params) (e : Int) :
    (0 ≤ residual K e ∧ residual K e ≤ e) ∨ (e ≤ residual K e ∧ residual K e ≤ 0) := by
  rw [residual_eq, tdiv_two_eq]
  omega

/-- Measured again after its correction, a sync error is its residual (R184). -/
theorem syncErr_clkCorr {s : State} (hK : Admissible s.K) (o : Int) :
    syncErr (clkCorr (syncErr s o) s) o = residual s.K (syncErr s o) := by
  have hrange := syncErr_range hK o
  have hbetween := residual_between s.K (syncErr s o)
  have hhalf := hK.rxperT_halves.1
  refine syncErr_eq_of_dvd (s := clkCorr (syncErr s o) s) hK (by simp only [clkCorr_K]; omega)
    (by simp only [clkCorr_K]; omega) ?_
  obtain ⟨i, hi⟩ := rxperT_dvd_sub_syncErr hK o
  obtain ⟨j, hj⟩ : (s.K.rxperT : Int) ∣
      (s.clk : Int) - correction s.K (syncErr s o) - ((clkCorr (syncErr s o) s).clk : Int) := by
    rw [clkCorr_clk_cast hK.superT_pos]
    exact (Int.natCast_dvd_natCast.mpr hK.rxperT_dvd_superT).trans Int.dvd_self_sub_emod
  exact ⟨i - j, by rw [clkCorr_K, clkCorr_dem, residual]; linear_combination hi - hj⟩

/-- Settles O18: `syncErr_clkCorr`. -/
theorem correctedClockMeasuresResidual : Obligations.CorrectedClockMeasuresResidual := fun s o hK =>
  ⟨syncErr s o, clkCorr (syncErr s o) s, rfl, rfl, by rw [← residual_eq, ← syncErr_clkCorr hK o]; rfl⟩

/-! ### Repeated correction -/

theorem abs_residual_le (K : Params) (e : Int) : |residual K e| ≤ |e| := by
  have := residual_between K e
  rw [Int.abs_eq_natAbs, Int.abs_eq_natAbs]
  omega

/-- An error of two ticks or more gets smaller. -/
theorem abs_residual_lt {K : Params} {e : Int} (h : 1 < |e|) : |residual K e| < |e| := by
  rw [residual_eq, tdiv_two_eq]
  simp only [Int.abs_eq_natAbs] at h ⊢
  omega

/-- Each correction takes at least a tick until at most one is left. -/
theorem abs_residual_iterate_le (K : Params) (m : Nat) (e : Int) : |(residual K)^[m] e| ≤ max 1 (|e| - m) := by
  induction m with
  | zero => simp
  | succ m ih =>
    rw [Function.iterate_succ_apply']
    by_cases h : 1 < |(residual K)^[m] e|
    · have := abs_residual_lt (K := K) h
      omega
    · have := abs_residual_le K ((residual K)^[m] e)
      omega

/-- Settles O19: after as many corrections as the error has ticks at most one tick is left. -/
theorem repeatedCorrectionConverges : Obligations.RepeatedCorrectionConverges := by
  intro K e
  refine ⟨fun h => ?_, abs_residual_le K e, e.natAbs, fun m hm => ?_⟩
  · rw [correction_eq, if_pos h, sub_self]
  · have hticks : |e| ≤ m := by rw [Int.abs_eq_natAbs]; exact_mod_cast hm
    have := abs_residual_iterate_le K m e
    change |(residual K)^[m] e| ≤ 1
    omega

/-! ### A copied phase -/

/-- With correction disabled the end of a frame leaves the clock (40_demod.md R108). -/
theorem frameDone_clk_of_corrEn {s : State} (h : corrEn s.cfg = false) : (frameDone s).clk = s.clk := by
  rcases settleFrame_cases { s with dem := { s.dem with mode := .unsync, nb := 0 } }
    with ⟨-, e⟩ | ⟨g, -, -, e⟩ | ⟨g, -, -, e⟩ <;> simp [frameDone, e, acceptTelegram_eq, h]

theorem modeStep_clk_of_corrEn (acc : Bool) (c : Change) {s : State} (h : corrEn s.cfg = false) :
    (modeStep acc c s).clk = s.clk := by
  rcases modeStep_effect acc c s with ⟨d, ev, e, -⟩ | ⟨-, d, b, l, e⟩
  · rw [e]
  · rw [e]; exact frameDone_clk_of_corrEn h

/-- With correction disabled a sample period, with a sample or without, advances the clock by `TPS` and leaves the
configuration. -/
theorem RequestStep.clk_of_samplePeriod {r : Req} {s t : State} (h : RequestStep (decode r) s t)
    (hr : opOf r = 0x3#4 ∨ opOf r = 0x4#4) (hc : corrEn s.cfg = false) :
    t.clk = (s.clk + s.K.tps) % superT s.K ∧ t.K = s.K ∧ t.cfg = s.cfg := by
  rcases hr with hr | hr
  · rw [show decode r = .sample (argOf r) by simp [decode, hr]] at h
    cases h with
    | sample => simp [takeSample_eq_modeStep, modeStep_clk_of_corrEn, hc]
    | reserved hi => exact absurd hi (sample_not_mem_reservedOps _)
  · rw [show decode r = .sampleskip by simp [decode, hr]] at h
    cases h with
    | sampleskip => simp [skipSample]
    | reserved hi => simp [reservedOps] at hi

/-- The super-frame depends on the slot length alone. -/
theorem superT_congr {K L : Params} (h : L.slotT = K.slotT) : superT L = superT K := by rw [superT, superT, h]

/-- Two blocks that agree on the clock and its parameters agree after equally many sample periods, whatever samples each
takes. -/
theorem perform_clk_eq {ra rb : List Req} {s t : State} (hlen : ra.length = rb.length)
    (hr : ∀ r ∈ ra ++ rb, opOf r = 0x3#4 ∨ opOf r = 0x4#4) (hs : corrEn s.cfg = false) (ht : corrEn t.cfg = false)
    (hslot : t.K.slotT = s.K.slotT) (htps : t.K.tps = s.K.tps) (hclk : s.clk = t.clk) :
    ∃ u v, perform ra s = some u ∧ perform rb t = some v ∧ u.1.clk = v.1.clk := by
  induction ra generalizing rb s t with
  | nil =>
    cases rb with
    | nil => exact ⟨_, _, rfl, rfl, hclk⟩
    | cons => cases hlen
  | cons a ra ih =>
    cases rb with
    | nil => cases hlen
    | cons b rb =>
      obtain ⟨s', hs'⟩ := everyOperationCompletes.1 (decode a) s
      obtain ⟨t', ht'⟩ := everyOperationCompletes.1 (decode b) t
      obtain ⟨hsclk, hsK, hscfg⟩ := (requestStep_of_exec_decode hs').clk_of_samplePeriod (hr a (by simp)) hs
      obtain ⟨htclk, htK, htcfg⟩ := (requestStep_of_exec_decode ht').clk_of_samplePeriod (hr b (by simp)) ht
      have hrest : ∀ r ∈ ra ++ rb, opOf r = 0x3#4 ∨ opOf r = 0x4#4 := fun r hm => hr r (by
        simp only [List.mem_append, List.mem_cons] at hm ⊢; tauto)
      have hsame : s'.clk = t'.clk := by rw [hsclk, htclk, hclk, htps, superT_congr hslot]
      obtain ⟨u, v, hu, hv, huv⟩ := ih (Nat.succ.inj hlen) hrest (hscfg ▸ hs) (htcfg ▸ ht)
        (by rw [hsK, htK, hslot]) (by rw [hsK, htK, htps]) hsame
      exact ⟨(u.1, s'.out ++ u.2), (v.1, t'.out ++ v.2), by rw [perform_cons hs', hu]; rfl,
        by rw [perform_cons ht', hv]; rfl, huv⟩

/-- Settles O20: the request loads the phase that was read, and `perform_clk_eq` keeps the clocks together. -/
theorem copiedClockStaysEqual : Obligations.CopiedClockStaysEqual := by
  intro a b hfits hlt hslot htps ha hb
  have hdecode : decode (copyClockRequest (readable a)) = .clkload (BitVec.ofNat 64 a.clk) := by
    simp [copyClockRequest, readable, decode]
  have hload : clockOperand b.K (BitVec.ofNat 64 a.clk) = a.clk := by
    rw [clockOperand_eq, BitVec.toNat_ofNat, Nat.mod_eq_of_lt hfits, superT_congr hslot, Nat.mod_eq_of_lt hlt]
  refine ⟨clkLoad (clockOperand b.K (BitVec.ofNat 64 a.clk)) (beginRequest b), by rw [hdecode]; rfl, hload, ?_⟩
  exact fun ra rb hlen hr => perform_clk_eq hlen hr ha hb hslot htps hload.symm

end Sys2Proof.Machine
end

section
/-! PROOFS. The control requests (44_control.md R201-R204): one step, `NOP`, `CFGWR` and the reserved codes. -/

namespace Sys2Proof.Machine

/-! ### The step -/

/-- A step performs the next request pending, with the others left pending (R204, log entry 3). -/
theorem step_of_reqs_cons {s : State} {r : Req} {rest : List Req} (h : s.reqs = r :: rest) :
    step s = exec (decode r) { s with reqs := rest } := by
  simp [step, takeRequest, h]

theorem step_of_reqs_nil {s : State} (h : s.reqs = []) : step s = .next s := by
  simp [step, takeRequest, h]

/-- Only an internal operation has an operand with a range of its own; an operation with a request word has none. -/
theorem wf_of_encode_ne_none (K : Config.Params) {i : Instr} (h : encode i ≠ none) : i.wf K = true := by
  cases i with
  | nop | reset | cfgwr | sample | sampleskip | txload | clkload
  | reserved7 | reserved8 | reserved9 | reservedA | reservedB | reservedC | reservedD | reservedE | reservedF => rfl
  | clktick | txbit | winpush | classifySlope | classifyZc | accept | unsyncStep | bitout | syncdet | lock | lockedStep
  | framebit | framedone | syncerr | clkcorr | pad | bchenc | interleave | encode | frame | deinterleave | bchdec
  | decode | idlechk => exact absurd rfl h

/-- Settles O5: a decoded word has an encoding, so no operand of it has a range. -/
theorem stepPerformsNextRequest : Obligations.StepPerformsNextRequest :=
  ⟨fun _ _ _ => step_of_reqs_cons, fun _ => step_of_reqs_nil,
    fun K r => wf_of_encode_ne_none K (encode_decode_ne_none r)⟩

/-! ### `NOP` and `CFGWR` -/

/-- Beginning a request writes only the model's own fields `out` and `ret`. -/
theorem sameSpec_beginRequest (s : State) : SameSpec s (beginRequest s) := ⟨rfl, rfl, rfl, rfl, rfl, rfl, rfl, rfl⟩

/-- Settles O9: `NOP` only begins a request. -/
theorem nopChangesNothing : Obligations.NopChangesNothing := fun s =>
  ⟨beginRequest s, rfl, sameSpec_beginRequest s, beginRequest_out s⟩

/-- Settles O11: to write `CFG` in the state of a begun request is to begin one in the state with `CFG` written. -/
theorem cfgwrWritesOnlyCfg : Obligations.CfgwrWritesOnlyCfg := fun s c =>
  ⟨beginRequest { s with cfg := c }, rfl, sameSpec_beginRequest _, beginRequest_out _, rfl, rfl, rfl⟩

/-! ### The reserved codes -/

theorem exec_of_mem_reservedOps {i : Instr} (h : i ∈ reservedOps) (s : State) :
    exec i s = .next (reservedRequest s) := by
  simp only [reservedOps, List.mem_cons, List.not_mem_nil, or_false] at h
  rcases h with rfl | rfl | rfl | rfl | rfl | rfl | rfl | rfl | rfl <;> rfl

@[simp] theorem reservedRequest_out (s : State) : (reservedRequest s).out = [] := rfl

theorem sameSpec_reservedRequest (s : State) : SameSpec { s with flags := withReqErr s.flags } (reservedRequest s) :=
  sameSpec_beginRequest { s with flags := withReqErr s.flags }

/-- A code of 7 or more is past the branches of the decoder that give a code a meaning (R70, R203). -/
theorem decode_mem_reservedOps {r : Req} (h : 7 ≤ (opOf r).toNat) : decode r ∈ reservedOps := by
  unfold decode
  split
  case h_1 hop | h_2 hop | h_3 hop | h_4 hop | h_5 hop | h_6 hop | h_7 hop => omega
  all_goals simp [reservedOps]

/-- Settles O12: all nine codes have the one effect `reservedRequest`. -/
theorem reservedCodesOnlySetReqErr : Obligations.ReservedCodesOnlySetReqErr :=
  ⟨fun _ hi s => ⟨reservedRequest s, exec_of_mem_reservedOps hi s, sameSpec_reservedRequest s, reservedRequest_out s,
    by simp⟩, fun _ => decode_mem_reservedOps⟩

end Sys2Proof.Machine
end

section
/-! PROOFS. Reception does not depend on transmission (70_reset_and_hazards.md R266): every request acts on the part of the
state that reception concerns as if the transmit registers and `FLAGS` were not there. -/

namespace Sys2Proof.Machine

/-! ### What reception sees of a state -/

/-- The state with the transmit registers, `FLAGS` and the `TXBIT` events erased, and with them the model's fields that no
operation reads. -/
def receiveView (s : State) : State :=
  { s with flags := 0#2, tx := Transmit.reset, reqs := [], out := s.out.filter fun e => !isTxbit e, ret := .none }

@[simp] theorem receiveView_K (s : State) : (receiveView s).K = s.K := rfl
@[simp] theorem receiveView_dem (s : State) : (receiveView s).dem = s.dem := rfl
@[simp] theorem receiveView_cfg (s : State) : (receiveView s).cfg = s.cfg := rfl
@[simp] theorem receiveView_clk (s : State) : (receiveView s).clk = s.clk := rfl

@[simp] theorem receiveView_receiveView (s : State) : receiveView (receiveView s) = receiveView s := by
  simp [receiveView]

/-- Two states look alike to reception when they agree on what R266 names and on the events other than `TXBIT`. -/
theorem receiveView_eq_iff {s t : State} : receiveView s = receiveView t ↔
    SameReceive s t ∧ s.out.filter (fun e => !isTxbit e) = t.out.filter (fun e => !isTxbit e) := by
  simp only [receiveView, SameReceive, State.mk.injEq, true_and, and_true, and_assoc, @eq_comm _ t.K, @eq_comm _ t.dem,
    @eq_comm _ t.cfg, @eq_comm _ t.stat, @eq_comm _ t.rx, @eq_comm _ t.clk]

/-- A request begins with no events, so states alike but for transmission look alike once it has begun. -/
theorem receiveView_beginRequest_eq {s t : State} (h : SameReceive s t) :
    receiveView (beginRequest s) = receiveView (beginRequest t) :=
  receiveView_eq_iff.mpr ⟨h, rfl⟩

/-! ### The transmit side is not seen -/

theorem receiveView_txBoundary (s : State) : receiveView (txBoundary s) = receiveView s := by
  rcases txBoundary_cases s with ⟨-, h⟩ | ⟨-, h⟩
  · simp [h, receiveView, isTxbit]
  · rw [h]

theorem receiveView_txLoad (p : Payload) (s : State) : receiveView (txLoad p s) = receiveView s := by
  rcases txLoad_cases p s with ⟨-, h⟩ | ⟨-, h⟩ <;> rw [h] <;> rfl

/-- Of a clock tick reception sees the clock. -/
theorem receiveView_clkTick (s : State) :
    receiveView (clkTick s) = clkLoad ((s.clk + s.K.tps) % superT s.K) (receiveView s) := by
  rcases clkTick_cases s with ⟨-, h⟩ | ⟨-, h⟩
  · rw [h, receiveView_txBoundary]; rfl
  · rw [h]; rfl

theorem receiveView_clkTick_receiveView (s : State) :
    receiveView (clkTick (receiveView s)) = receiveView (clkTick s) := by
  simp [receiveView_clkTick]

/-! ### The receive side acts on what is seen -/

theorem receiveView_emit {e : Event} (h : isTxbit e = false) (s : State) :
    receiveView (emit e s) = emit e (receiveView s) := by
  simp [receiveView, emit, h]

theorem receiveView_bitOut (b : Bool) (l : Nat) (a : Int) (s : State) :
    receiveView (bitOut b l a s) = bitOut b l a (receiveView s) := by
  have hemit := receiveView_emit (e := .rawbit b l) rfl { s with dem := pushHistory b l a s.dem }
  have hlock (u : State) : receiveView (lock u) = lock (receiveView u) := rfl
  simp only [bitOut, apply_ite receiveView, hlock, hemit]
  rfl

theorem receiveView_unsyncStep (acc : Bool) (c : Change) (s : State) :
    receiveView (unsyncStep acc c s) = unsyncStep acc c (receiveView s) := by
  simp only [unsyncStep, apply_ite receiveView, receiveView_bitOut]
  rfl

theorem receiveView_acceptTelegram (g : Telegram) (s : State) :
    receiveView (acceptTelegram g s) = acceptTelegram g (receiveView s) := by
  have hemit := receiveView_emit (e := .rxframe (rxResultOf s g)) rfl
    { s with stat := acceptedStat (rxResultOf s g).errcnt, rx := rxResultOf s g }
  have hcorr (e : Int) (u : State) : receiveView (clkCorr e u) = clkCorr e (receiveView u) := rfl
  simp only [acceptTelegram, apply_ite receiveView, hcorr, hemit]
  rfl

theorem receiveView_settleFrame (s : State) : receiveView (settleFrame s) = settleFrame (receiveView s) := by
  simp only [settleFrame, receiveView_K, receiveView_dem]
  cases decodeTelegram s.K s.dem.fb with
  | none => rfl
  | some g =>
    simp only [apply_ite receiveView, receiveView_acceptTelegram]
    rfl

theorem receiveView_frameDone (s : State) : receiveView (frameDone s) = frameDone (receiveView s) := by
  have hclear (u : State) : receiveView (clearSkip u) = clearSkip (receiveView u) := rfl
  simp only [frameDone, hclear, receiveView_settleFrame]
  rfl

theorem receiveView_frameBit (b : Bool) (s : State) : receiveView (frameBit b s) = frameBit b (receiveView s) := by
  have hstore : receiveView { emit (.rawbit b s.dem.curLvl) s with dem := storeFrameBit b s.dem }
      = { emit (.rawbit b s.dem.curLvl) (receiveView s) with dem := storeFrameBit b s.dem } := by
    rw [← receiveView_emit rfl]; rfl
  simp only [frameBit, apply_ite receiveView, receiveView_frameDone, hstore]
  rfl

theorem receiveView_trackLevel (acc : Bool) (c : Change) (s : State) :
    receiveView (trackLevel acc c s) = trackLevel acc c (receiveView s) := by
  simp only [trackLevel, apply_ite receiveView]
  rfl

theorem receiveView_lockedStep (acc : Bool) (c : Change) (s : State) :
    receiveView (lockedStep acc c s) = lockedStep acc c (receiveView s) := by
  simp only [lockedStep, apply_ite receiveView, receiveView_frameBit, ← receiveView_trackLevel]
  rfl

theorem receiveView_modeStep (acc : Bool) (c : Change) (s : State) :
    receiveView (modeStep acc c s) = modeStep acc c (receiveView s) := by
  simp only [modeStep, receiveView_dem]
  cases s.dem.mode with
  | unsync => exact receiveView_unsyncStep acc c s
  | locked => exact receiveView_lockedStep acc c s

/-! ### The sample periods -/

theorem receiveView_sampled_receiveView (x : Int) (s : State) :
    receiveView (sampled x (receiveView s)) = receiveView (sampled x s) :=
  congrArg (fun v => countDown (winPush x (advanceTime v))) (receiveView_clkTick_receiveView s)

/-- A sample is taken from what reception sees once the clock has ticked and the window has moved. -/
theorem receiveView_takeSample (x : Int) (s : State) :
    receiveView (takeSample x s) = modeStep (observed (receiveView (sampled x s))) (observe (receiveView (sampled x s)))
      (receiveView (sampled x s)) :=
  receiveView_modeStep _ _ _

theorem receiveView_takeSample_receiveView (x : Int) (s : State) :
    receiveView (takeSample x (receiveView s)) = receiveView (takeSample x s) := by
  rw [receiveView_takeSample, receiveView_takeSample, receiveView_sampled_receiveView]

theorem receiveView_skipSample_receiveView (s : State) :
    receiveView (skipSample (receiveView s)) = receiveView (skipSample s) :=
  congrArg (fun v => { v with dem := { v.dem with skipseen := true } }) (receiveView_clkTick_receiveView s)

/-! ### Requests and streams -/

/-- What reception sees after a request is what the request makes of the view alone. -/
theorem RequestStep.exec_receiveView {i : Instr} {s t : State} (h : RequestStep i s t) :
    ∃ u, exec i (receiveView (beginRequest s)) = .next u ∧ receiveView t = receiveView u := by
  cases h with
  | nop | reset | cfgwr | clkload => exact ⟨_, rfl, rfl⟩
  | sample arg => exact ⟨_, rfl, (receiveView_takeSample_receiveView _ (beginRequest s)).symm⟩
  | sampleskip => exact ⟨_, rfl, (receiveView_skipSample_receiveView (beginRequest s)).symm⟩
  | txload p => exact ⟨_, rfl, by rw [receiveView_txLoad, receiveView_txLoad]; rfl⟩
  | reserved hi => exact ⟨_, exec_of_mem_reservedOps hi _, rfl⟩

/-- One request brings states alike but for transmission to states that look alike to reception. -/
theorem receiveView_eq_of_exec {r : Req} {s s' t t' : State} (hs : SameReceive s s')
    (ht : exec (decode r) s = .next t) (ht' : exec (decode r) s' = .next t') : receiveView t = receiveView t' := by
  obtain ⟨u, hu, htu⟩ := (requestStep_of_exec_decode ht).exec_receiveView
  obtain ⟨u', hu', htu'⟩ := (requestStep_of_exec_decode ht').exec_receiveView
  rw [receiveView_beginRequest_eq hs, hu'] at hu
  cases hu
  rw [htu, htu']

/-- Settles O58, by induction on the stream: each request completes and keeps the two states alike but for transmission. -/
theorem receptionIgnoresTransmission : Obligations.ReceptionIgnoresTransmission := by
  intro rs
  induction rs with
  | nil => exact fun s s' hs => ⟨s, s', [], [], rfl, rfl, hs, rfl⟩
  | cons r rest ih =>
    intro s s' hs
    obtain ⟨u, hu⟩ := everyOperationCompletes.1 (decode r) s
    obtain ⟨u', hu'⟩ := everyOperationCompletes.1 (decode r) s'
    obtain ⟨hsame, hout⟩ := receiveView_eq_iff.mp (receiveView_eq_of_exec hs hu hu')
    obtain ⟨t, t', ev, ev', ht, ht', hend, hev⟩ := ih u u' hsame
    exact ⟨t, t', u.out ++ ev, u'.out ++ ev', by rw [perform_cons hu, ht]; rfl, by rw [perform_cons hu', ht']; rfl, hend,
      by rw [List.filter_append, List.filter_append, hout, hev]⟩

end Sys2Proof.Machine
end
